-- ==== Sys2Proof/Word.lean ====
section
/-! DEFINITION. The word types and their plainest arithmetic (R8: bit 0 is the least significant bit, multi-byte fields are little-endian). -/

namespace Sys2Proof

/-- One byte. -/
abbrev Byte := BitVec 8

/-- A string of bytes, lowest address first. -/
abbrev Bytes := List Byte

/-- A module address, a partition address, a register value or any other quantity the spec counts or indexes is a `Nat`; its width is the spec's (`WellFormed.lean`). -/
abbrev Addr := Nat

end Sys2Proof
end

