-- ==== Sys2Proof/Syntax.lean ====
section
/-! DEFINITION. The commands of the module: one constructor of `Instr` per row of spec/opcode_table.json, and the types of their operands.
A row with a time or an event of the spec behind it (a timer, a tick, a failure) is a command that says the event occurs now. -/

namespace Sys2Proof

/-- Who accesses a register (R12): an LD's host, the management controller's commands, the test access port. -/
inductive Requester where
  | ld (port ld : Nat)
  | mgmt
  | tap
deriving DecidableEq, Repr

/-- How a 64-bit register is written (R12): whole, or by one of its halves. -/
inductive Access64 where
  | full (v : Nat)
  | lower (v : Nat)
  | upper (v : Nat)
deriving DecidableEq, Repr

/-- A part of the module that can fail (Table 1-2, Table 13-4). Numbers count over the whole module. -/
inductive UnitId where
  | matrix (n : Nat)
  | operandExpander (n : Nat)
  | vector (n : Nat)
  | scalar (n : Nat)
  | nearCtl (stack : Nat)
  | deepCtl (channel : Nat)
  | egressExpander (port : Nat)
  | cxlPort (port : Nat)
  | coldonPort (port : Nat)
  | cluster (n : Nat)
  | region (n : Nat)
  | dieA
  | dieB
  | hub
deriving DecidableEq, Repr

/-- The three die-to-die links (Table 1-5). -/
inductive D2dLink where
  | aHub
  | bHub
  | aB
deriving DecidableEq, Repr

/-- The coherence state a request's MetaValue names (R44). -/
inductive Meta where
  | any
  | shared
  | invalid
  | noOp
deriving DecidableEq, Repr

/-- The state a BIRsp reports (R49): the holder keeps the line Shared, or holds it no more. -/
inductive BiState where
  | s
  | i
deriving DecidableEq, Repr

/-- A burst of write words of one packet offered to wings queue `q`, and the read words its reader takes after it (R357 to R359).
`bytes` are the bytes written, `sop` and `eop` say whether the burst begins and ends its packet. -/
structure QBurst where
  q : Nat
  sop : Bool
  bytes : Nat
  eop : Bool
  taken : Nat
deriving DecidableEq, Repr

/-- What the packet that a wings queue closes carries, for its reader to end (Table 18-2) (DESIGN CHOICE, log 40). -/
inductive ClosedUse where
  /-- Nothing that a requester waits for. -/
  | other
  /-- CXL ingress: the requests of the flit that are not complete, by number. -/
  | requests (ids : List Nat)
  /-- CXL egress: the lines of the flit whose bytes are missing, as (LD-ID, tag). -/
  | lines (l : List (Nat × Nat))
  /-- Coldon transmit: the last sequenced message of the session with a peer. -/
  | message (peer : Nat)
  /-- Return queues: the line of a host load, a block of a cue's fill (partition, cue, block of the cue), or data of a staged operation. -/
  | hostLine (port ld tag : Nat)
  | fill (part cue k : Nat)
  | operation (op : Nat)
deriving DecidableEq, Repr

/-- One symbol error that a DRAM read meets: in line `line` of what is read, codeword `cw`, symbol (device) `dev`, by the error value `val` (R276 to R278).
Of a near-tier read, `cw` is the burst (0 or 1) of the line, and a `dev` from 18 on is an error that the device's on-die ECC reports (R278). -/
structure SymErr where
  line : Nat
  cw : Nat
  dev : Nat
  val : Nat
deriving DecidableEq, Repr

/-- The CXL IDE streams of a port (R55). -/
inductive IdeStream where
  | cachemem
  | ioLink
  | selective (n : Nat)
deriving DecidableEq, Repr

/-- A register access as it arrives: its requester, and for a host's the CXL.io stream whose MAC check fails on it, if one does (R12, R56). -/
structure ReqVia where
  rq : Requester
  badMac : Option IdeStream
deriving DecidableEq, Repr

/-- Where a flit arrives: the port, and whether its MAC check passes (R56). -/
structure FlitAt where
  port : Nat
  macOk : Bool
deriving DecidableEq, Repr

/-- A temperature reading (R263): of a logical rank, whether MR4 reports the doubled rate; of a stack, its temperature in 1/16 °C. -/
structure TempReading where
  lr : Nat
  doubledRate : Bool
  temp : Int
deriving DecidableEq, Repr

/-- Where an SPDM message arrives (R318): the DOE instance of an LD, or MCTP. -/
inductive SpdmEp where
  | doe (port ld : Nat)
  | mctp
deriving DecidableEq, Repr

/-- The path of an FM API command (R40): the FM-owned LD of a port, MCTP on I3C naming a port, or another LD's mailbox (Table 2-7). -/
inductive FmPath where
  | fmLd (port : Nat)
  | i3c (port : Nat)
  | other (port ld : Nat)
deriving DecidableEq, Repr

/-- The path of a management message (R342). An MCTP message over CXL.io addressed to an LD other than the FM-owned LD is discarded. -/
inductive MgmtPath where
  | i3c
  | cxlFm (port : Nat)
  | cxlLd (port ld : Nat)
deriving DecidableEq, Repr

/-- The head of an Eofaner management request (R343): its path, its TAG, and whether it came over a secured SPDM session (R342). -/
structure MgmtHdr where
  path : MgmtPath
  tag : Nat
  secured : Bool
deriving DecidableEq, Repr

/-- What host software does to MSI-X state (R76). -/
inductive MsixAct where
  | maskEntry (v : Nat) (masked : Bool)
  | maskFunction (masked : Bool)
  | enable (on : Bool)
deriving DecidableEq, Repr

/-- A received Ethernet frame that carries a Coldon message: its link, IP and UDP fields, and the header of Table 10-3. The row's operands are the body as the receiving
key decrypts it. -/
structure Frame where
  port : Nat
  /-- FCS correct. -/
  fcsOk : Bool
  /-- Bytes from the destination MAC address to the FCS. -/
  frameLen : Nat
  /-- VLAN ID of the 802.1Q tag. -/
  vlan : Option Nat
  /-- An IPv6 packet with a UDP header. -/
  udp : Bool
  srcIp : Nat
  dstIp : Nat
  udpPort : Nat
  udpLen : Nat
  /-- UDP checksum correct. -/
  sumOk : Bool
  /-- ECN reads CE. -/
  ce : Bool
  version : Nat
  /-- The TYPE byte; a row whose message has another TYPE stands for a reserved value. -/
  typ : Nat
  ece : Bool
  retx : Bool
  ackv : Bool
  seqd : Bool
  enc : Bool
  session : Nat
  seq : Nat
  ack : Nat
  len : Nat
  credit : Nat
  src : Nat
  dst : Nat
  txc : Nat
  /-- Reserved bits of header bytes 0 to 35 that are 1, as a little-endian number of these bytes. -/
  rsv : Nat
  hchk : Nat
  /-- Reserved bits of the body that are 1, in the same way. -/
  bodyRsv : Nat
  /-- The GCM tag; empty without one. -/
  tag : Bytes
deriving DecidableEq, Repr

/-- Body of HELLO and HELLO_RSP (Table 10-4). -/
structure HelloBody where
  moduleId : Nat
  lsid : Nat
  nonce : Bytes
  eph : Bytes
  idKey : Bytes
  sig : Bytes
deriving DecidableEq, Repr

/-- A Coldon message body (Table 10-4). -/
inductive ColdonMsg where
  | hello (b : HelloBody)
  | helloRsp (b : HelloBody)
  | finish
  | ack (blocks : List (Nat × Nat))
  | ping (cookie : Nat)
  | pong (cookie : Nat)
  | close (reason : Nat)
  | nak (session moduleId reason : Nat)
  | read (caddr rid rtag digest lines : Nat) (pre coded : Bool)
  | readRsp (rtag status poison mapent : Nat) (data : Bytes)
  | write (caddr rid rtag digest lines poison : Nat) (data : Bytes)
  | add (caddr rid rtag digest lines : Nat) (afmtBf16 tfmtBf16 : Bool) (poison : Nat) (data : Bytes)
  | delta (caddr rid rtag digest lines poison : Nat) (data : Bytes)
  | writeAck (rtag status : Nat)
  | reserve (rid rtag digest base part : Nat)
  | commit (rid rtag digest base part slot : Nat)
  | abandon (rid rtag digest part slot : Nat)
  | acquire (rid rtag digest version part : Nat)
  | release (rid rtag digest part : Nat)
  | regionRsp (rtag status slot homeEpoch version : Nat)
  | fill (rid rtag digest baseSlot newSlot offset length : Nat)
  | mirror (rid rtag homeEpoch change slot module part state version : Nat)
  | promote (rid homeEpoch newHome : Nat)
  | tableFetch (rid rtag digest slot gen : Nat)
  | tableRsp (rtag status slot gen fmt : Nat) (lens : List Nat)
  | tableDrop (slot gen : Nat)
  | tableRelease (slot gen : Nat)
  | reduceJoin (group rseq rank opFlags count : Nat)
  | reduceData (group rank fmt rseq elem poison : Nat) (data : Bytes)
  | reduceSum (group rank fmt rseq elem poison : Nat) (data : Bytes)
  | reduceAbort (group reason rseq : Nat)
deriving DecidableEq, Repr

/-- The samples and counts of one power-controller tick (R291, R292, R304, R345). -/
structure TickInput where
  /-- Mean input power of the tick's samples, in mW, and mean voltage in mV. -/
  meanMw : Nat
  meanMv : Nat
  minMv : Nat
  maxMv : Nat
  /-- Every current sample of the tick has the code of the last sample before it. -/
  codeUnchanged : Bool
  /-- Events each die's units counted during the tick, by kind (R291). -/
  eventsA : List Nat
  eventsB : List Nat
  eventsHub : List Nat
  /-- The 96 thermal sensors, in 1/16 °C (Table 14-4). -/
  temps : List Int
  /-- The 24 rail monitors: voltage in mV and current in mA (Table 17-2). -/
  rails : List (Nat × Nat)
deriving DecidableEq, Repr

/-- A memory controller: the deep-tier controllers of a channel pair, or a near-tier controller (Table 12-1). -/
inductive Ctl where
  | deep (pair : Nat)
  | near (stack : Nat)
deriving DecidableEq, Repr

/-- The caps and thermal limits that produce a demand (R299, R305, R307). -/
inductive Cap where
  | peak
  | sustained
  | dieA
  | dieB
  | hub
  | softA
  | softB
  | softHub
  | supply
deriving DecidableEq, Repr

/-- The commands (DESIGN CHOICE, log 128). -/
inductive Instr where
  -- register access (R10 to R13)
  -- `badMac`: the CXL.io IDE stream that carried the access and whose MAC check failed on it (R56)
  | registerWrite (via : ReqVia) (addr size value : Nat)
  | rcRead (via : ReqVia) (addr size counted : Nat)
  | halfReadLatch (via : ReqVia) (addr : Nat)
  -- failures (R18 to R20, R275)
  | unitFailure (u : UnitId)
  | d2dReplay (l : D2dLink) (ok : Bool)
  | d2dLinkDown (l : D2dLink) (lostLock : Bool)
  | hopReplay (u : UnitId) (ok : Bool)
  | hopFailed (u : UnitId)
  -- windows (R241, R298)
  -- `waiting`: activities with a request waiting at a near-tier controller or a CXL port, which the model does not hold; `panic`: bytes granted there at PANIC, by master
  | windowBoundary (cls point : Nat) (waiting : List Nat) (panic : List (Nat × Nat))
  | admissionWindow
  -- data return (R24, R126, R281)
  | deepReadReturn (id : Nat) (errs : List SymErr)
  | mergeBufferWrite (pair : Nat) (errs : List SymErr)
  | egressExpansionDone (port block : Nat)
  -- CXL links (R35 to R38, R80)
  | linkTraining (port rate : Nat) (x8 flitOk : Bool)
  | linkUp (port : Nat)
  | linkRetrain (port rate : Nat) (x8 : Bool)
  | linkDown (port : Nat)
  | perstNAssert (port : Nat)
  | hotReset (port : Nat)
  | functionLevelReset (port ld : Nat)
  | msixUnmask (port ld : Nat) (act : MsixAct)
  | hdmDecoderCommit (port ld idx base size skip ways gran : Nat) (bi : Bool)
  -- CXL.mem (R44 to R53)
  | memrd (port ld tag hpa : Nat) (mv : Meta) (macOk : Bool) (errs : List SymErr) (metaLost : Bool) (q : List QBurst)
  | memspecrd (flit : FlitAt) (ld hpa : Nat)
  | meminv (flit : FlitAt) (ld tag hpa : Nat) (mv : Meta)
  | memclnevct (flit : FlitAt) (ld tag hpa : Nat)
  | memwr (port ld tag hpa : Nat) (mv : Meta) (macOk : Bool) (data : Bytes) (poison : Bool)
  | memwrptl (flit : FlitAt) (ld tag hpa : Nat) (mv : Meta) (data : Bytes) (mask : List Bool) (poison : Bool)
  | birsp (flit : FlitAt) (ld line : Nat) (st : BiState) (wb : Option (Bytes × Bool))
  | biconflict (flit : FlitAt) (ld line : Nat)
  | biTimeout (port ld line : Nat)
  -- IDE, DOE, CDAT (R36, R55 to R57)
  | ideKmKeyProg (port : Nat) (st : IdeStream) (session keySet : Nat)
  | ideKeySetChange (port : Nat) (st : IdeStream)
  | doeDiscovery (port ld index : Nat)
  | cdatTableAccess (port ld entry : Nat)
  | doeUnknownObject (port ld vendor typ : Nat)
  -- SPDM (R318, R319)
  | getVersion (ep : SpdmEp)
  | getCapabilities (ep : SpdmEp)
  | negotiateAlgorithms (ep : SpdmEp) (asym hash dhe aead : Nat)
  | getCertificate (ep : SpdmEp) (slot off len : Nat)
  | challenge (ep : SpdmEp) (slot : Nat) (nonce : Bytes)
  | getMeasurements (ep : SpdmEp) (index : Nat) (signed : Bool) (nonce : Bytes)
  | keyExchange (ep : SpdmEp) (reqSession : Nat) (exch : Bytes)
  | spdmFinish (ep : SpdmEp) (session : Nat) (macOk : Bool)
  | heartbeat (ep : SpdmEp) (session : Nat)
  | keyUpdate (ep : SpdmEp) (session : Nat)
  | endSession (ep : SpdmEp) (session : Nat)
  -- FM API (R40)
  | getLdInfo (p : FmPath)
  | getLdAllocations (p : FmPath)
  | setLdAllocations (p : FmPath) (alloc : List Nat)
  | getQosControl (p : FmPath)
  | setQosControl (p : FmPath)
  | getQosStatus (p : FmPath)
  | getQosAllocatedBw (p : FmPath)
  | setQosAllocatedBw (p : FmPath)
  | getQosBwLimit (p : FmPath)
  | setQosBwLimit (p : FmPath)
  -- mailbox (R59 to R61)
  | identify (port ld : Nat)
  | backgroundOperationStatus (port ld : Nat)
  | getResponseMessageLimit (port ld : Nat)
  | getEventRecords (port ld log max : Nat)
  | clearEventRecords (port ld log : Nat) (handles : List Nat)
  | getEventInterruptPolicy (port ld : Nat)
  | setEventInterruptPolicy (port ld : Nat) (signal : List Bool)
  | getFwInfo (port ld : Nat)
  | transferFw (port ld : Nat)
  | activateFw (port ld : Nat)
  | getTimestamp (port ld : Nat)
  | setTimestamp (port ld : Nat)
  | getSupportedLogs (port ld : Nat)
  | getLog (port ld log off len : Nat)
  | getLogCapabilities (port ld log : Nat)
  | clearLog (port ld log : Nat)
  | identifyMemoryDevice (port ld : Nat)
  | getPartitionInfo (port ld : Nat)
  | setPartitionInfo (port ld : Nat)
  | getLsa (port ld : Nat)
  | setLsa (port ld : Nat)
  | getHealthInfo (port ld : Nat)
  | getAlertConfiguration (port ld : Nat)
  | setAlertConfiguration (port ld : Nat) (temp ce : Nat)
  | getShutdownState (port ld : Nat)
  | setShutdownState (port ld : Nat)
  | getPoisonList (port ld dpa len : Nat)
  | injectPoison (port ld dpa : Nat)
  | clearPoison (port ld dpa : Nat) (data : Bytes)
  | getScanMediaCapabilities (port ld dpa len : Nat)
  | scanMedia (port ld dpa len : Nat)
  | getScanMediaResults (port ld : Nat)
  | sanitize (port ld : Nat)
  | secureErase (port ld : Nat)
  | getSecurityState (port ld : Nat)
  | setPassphrase (port ld : Nat)
  | disablePassphrase (port ld : Nat)
  | unlock (port ld : Nat)
  | freezeSecurityState (port ld : Nat)
  | passphraseSecureErase (port ld : Nat)
  | unsupportedOpcode (port ld opcode : Nat)
  | backgroundCommandDone (part : Nat) (errs : List SymErr)
  -- partitions and rings (R64 to R81)
  | partReset (port ld value : Nat)
  | partitionResetComplete (part : Nat)
  | sqTailWrite (port ld ring value : Nat)
  | cqHeadWrite (port ld ring value : Nat)
  | ringReset (port ld ring value : Nat)
  | ringResetEnd (ring : Nat)
  | ringIntMaskWrite (port ld ring value : Nat)
  | descriptorFetch
  | operationFinish (ops : List Nat)
  | coalTimeExpiry (port ld vector : Nat)
  -- staged operations (R157 to R181); `op` is the operation's slot
  | nop (op : Nat)
  | fence (op : Nat)
  | copy (op : Nat)
  | fill (op : Nat)
  | seal (op : Nat)
  | sealAdmit (op : Nat)
  | sealBlockReplace (op : Nat)
  | unseal (op : Nat)
  | place (op : Nat)
  | prefetch (op : Nat)
  | gemm (op : Nat)
  | recipe (op : Nat)
  | optim (op : Nat)
  | reduce (op : Nat)
  | joinTimeout (op : Nat)
  | gather (op : Nat)
  | scatterAdd (op : Nat)
  | simsearch (op : Nat)
  | publish (op : Nat)
  | acquire (op : Nat)
  | release (op : Nat)
  | counters (op : Nat)
  -- tiers and cues (R83 to R106)
  | tierHintWrite (port ld n value : Nat)
  | evict (port ld n value : Nat)
  | evictDone (part n : Nat)
  | cueCurtain (port ld value : Nat)
  | cueSelect (port ld : Nat) (acc : Access64)
  | cueWeight (port ld : Nat) (acc : Access64)
  | cueBlockIssue (heldBack : List Nat)
  | cueBlockFill (part cue block : Nat) (errs : List SymErr)
  -- cavern and Coldon (R199 to R239)
  | rebuildStep (rid : Nat)
  | slotWaitExpiry (rid module rtag : Nat)
  | hello (f : Frame) (b : HelloBody)
  | helloRsp (f : Frame) (b : HelloBody)
  | coldonFinish (f : Frame)
  | ack (f : Frame) (blocks : List (Nat × Nat))
  | ping (f : Frame) (cookie : Nat)
  | pong (f : Frame) (cookie : Nat)
  | close (f : Frame) (reason : Nat)
  | nak (f : Frame) (session moduleId reason : Nat)
  | read (f : Frame) (caddr rid rtag digest lines : Nat) (pre coded : Bool) (q : List QBurst)
  | readRsp (f : Frame) (rtag status poison mapent : Nat) (data : Bytes)
  | write (f : Frame) (caddr rid rtag digest lines poison : Nat) (data : Bytes)
  | add (f : Frame) (caddr rid rtag digest lines : Nat) (afmtBf16 tfmtBf16 : Bool) (poison : Nat) (data : Bytes)
  | delta (f : Frame) (caddr rid rtag digest lines poison : Nat) (data : Bytes)
  | writeAck (f : Frame) (rtag status : Nat)
  | reserve (f : Frame) (rid rtag digest base part : Nat)
  | commit (f : Frame) (rid rtag digest base part slot : Nat)
  | abandon (f : Frame) (rid rtag digest part slot : Nat)
  | coldonAcquire (f : Frame) (rid rtag digest version part : Nat)
  | coldonRelease (f : Frame) (rid rtag digest part : Nat)
  | regionRsp (f : Frame) (rtag status slot homeEpoch version : Nat)
  | coldonFill (f : Frame) (rid rtag digest baseSlot newSlot offset length : Nat)
  | mirror (f : Frame) (rid rtag homeEpoch change slot module part state version : Nat)
  | promote (f : Frame) (rid homeEpoch newHome : Nat)
  | tableFetch (f : Frame) (rid rtag digest slot gen : Nat)
  | tableRsp (f : Frame) (rtag status slot gen fmt : Nat) (lens : List Nat)
  | tableDrop (f : Frame) (slot gen : Nat)
  | tableRelease (f : Frame) (slot gen : Nat)
  | reduceJoin (f : Frame) (group rseq rank opFlags count : Nat)
  | reduceData (f : Frame) (group rank fmt rseq elem poison : Nat) (data : Bytes)
  | reduceSum (f : Frame) (group rank fmt rseq elem poison : Nat) (data : Bytes)
  | reduceAbort (f : Frame) (group reason rseq : Nat)
  | helloRetryExpiry (peer : Nat)
  | rtoExpiry (peer seq : Nat)
  | ackDelayExpiry (peer : Nat)
  | idlePingExpiry (peer : Nat)
  | livenessLimitExpiry (peer : Nat)
  | neighborSolicitation (port target : Nat)
  | echoRequest (port dest : Nat) (data : Bytes)
  | pfcFrame (port pcp : Nat) (xoff : Bool)
  | pauseFrame (port : Nat)
  | routerAdvertisement (port : Nat)
  | coldonPortDown (port : Nat)
  | coldonPortUp (port : Nat)
  -- budgets (R253)
  | throttleEnd (pair activity : Nat)
  -- memory controllers (R256 to R273)
  | refreshDue (c : Ctl) (k : Nat) (rtWaiting : Bool)
  | refreshIssue (c : Ctl) (k : Nat) (rtWaiting : Bool)
  | refreshComplete (c : Ctl) (k : Nat)
  | mr4Read (c : Ctl) (k : Nat) (reading : TempReading)
  | retrainRound (c : Ctl) (k : Nat) (periodic : Bool) (temp : Int)
  | retrainStep (c : Ctl) (k : Nat) (panicWaiting ok okAgain : Bool)
  | retrainDeferExpiry (c : Ctl) (k : Nat)
  | trackerClear (c : Ctl)
  | targetedRefresh (c : Ctl) (bank row : Nat)
  | freqChangeStart (pair : Nat) (panicWaiting : Bool)
  | freqChangeDone (pair : Nat) (hot : List Bool) (pauseNs : Nat)
  | dctlXlateMa (rq : Requester) (pair : Nat) (acc : Access64)
  -- RAS (R274 to R289, R324)
  | scrubStep (c : Ctl) (errs : List SymErr)
  | deviceLocate (rank : Nat) (found : Option Nat)
  | migrationStep (errs : List SymErr)
  | recoveryEnd (block : Nat) (deepErr replicaErr : Bool) (cavern : Option Bytes)
  | holdLimitExpiry (id : Nat)
  | eraseSweepStep (pair : Nat)
  -- power and thermal (R290 to R310)
  | powerTick (t : TickInput)
  | demandFall (c : Cap)
  | calibrationInterval
  | calNvmWrite
  | capDeferred (op : Nat)
  | thermalTrip (sensor : Nat) (reading : Int)
  | supplyTrip
  | pwrCapModule (rq : Requester) (value : Nat)
  | pwrCapDie (rq : Requester) (acc : Access64)
  -- security commands (R314 to R326)
  | ownerClaim (m : MgmtHdr) (key sig : Bytes)
  | ownerTransfer (m : MgmtHdr) (newHash serial nonce sig : Bytes)
  | cosignSet (m : MgmtHdr) (sig : Bytes)
  | debugChallenge (m : MgmtHdr)
  | debugUnlock (m : MgmtHdr) (token : Bytes)
  | debugLock (m : MgmtHdr)
  -- start-up, reload and management (R327 to R355)
  | powerUp (modAddr : Nat)
  | trainingComplete (failed : List UnitId)
  | startTimeout
  | reload (m : MgmtHdr) (slot : Nat)
  | reloadComplete
  | resetPartition (m : MgmtHdr) (part : Nat)
  | moduleReset (m : MgmtHdr)
  | moduleRestart (m : MgmtHdr)
  | epoch (m : MgmtHdr)
  | cavernPromote (m : MgmtHdr) (rid : Nat)
  | timeSet (m : MgmtHdr) (t : Nat)
  | logRead (m : MgmtHdr) (bookmark count : Nat)
  | bookmarkSet (m : MgmtHdr) (bookmark mode seq : Nat)
  | logBmkWrite (rq : Requester) (bookmark value : Nat)
  | fwCommit (m : MgmtHdr)
  | regRead (m : MgmtHdr) (addr width : Nat)
  | regWrite (m : MgmtHdr) (addr width value : Nat)
  | unknownCommand (m : MgmtHdr) (code : Nat)
  | mgmtWatchdog
  | callboardMirrorWrite (dev : Nat)
  | setEventReceiver (eid : Nat)
  | verifyComplete (component slot : Nat)
  | activateFirmware
  | trialCommitTimeout
  -- wings queues (R356 to R367)
  | wqStallClose (q : Nat) (use : ClosedUse) (again : Bool)
  | wqPacketNumberArrival (q : Nat)
  | crossedClear (rq : Requester) (q : Nat) (crossingNow : Bool)
  | markWrite (rq : Requester) (q value : Nat)
  | tstHoldEnd (q : Nat)
  -- pins (R372 to R378)
  | modResetNAssert (widthNs : Nat)
  | modResetNRelease
  | standbyLoss
  | prsntNRise (port : Nat)
  | prsntNFall (port : Nat)
  | perstNRelease (port : Nat)
  | componentTransfer (component slot off : Nat) (data : Bytes)
deriving DecidableEq, Repr

end Sys2Proof
end

