-- ==== Sys2Proof/Decode.lean ====
section
/-! DEFINITION. The command that a word spells by the bits of spec/opcode_table.json: no row of the table gives bits, so no word spells one. -/

namespace Sys2Proof

/-- No row of the table gives bits (its `fields` are empty and it has no `fixed`) (DESIGN CHOICE, log 39). -/
def decodeTableWord (_nbits _w : Nat) : Option Instr := none

end Sys2Proof
end

