-- ==== Sys2Proof/Config.lean ====
section
/-! DEFINITION. What an implementation fixes and the spec leaves open: opaque constants with no body, so no proof can see their values.
Each is named in an entry of the assumption log. -/

namespace Sys2Proof.Config

/-- Free values: the n-th value drawn (DESIGN CHOICE, log 7). `State.free` counts the draws. -/
opaque freeWord : Nat → BitVec 64

/-- Byte that an address of a block gives when the block cannot be expanded; it is always delivered with poison (R51; DESIGN CHOICE, log 14). -/
opaque deadByte : Nat → BitVec 8

/-- Serial number of the module, 16 bytes (R325, R328; DESIGN CHOICE, log 8). -/
opaque serial : List (BitVec 8)

/-- A signature over a digest verifies under the owner's key with a given hash: the module holds the hash, and the spec does not say where a command's
verifier takes the key from (R315, R325; DESIGN CHOICE, log 8). -/
opaque ownerVerify : (ownerHash digest sig : List (BitVec 8)) → Bool

/-- The signature of COSIGN_SET verifies under the owner's key with a given hash; the spec does not say what it covers (R316; DESIGN CHOICE, log 8). -/
opaque cosignVerify : (ownerHash sig : List (BitVec 8)) → Bool

/-- Eofaner's public key, under which firmware and debug tokens verify (R316, R325; DESIGN CHOICE, log 8). -/
opaque eofanerKey : List (BitVec 8)

/-- The module's device identity private key, an integer (R312; DESIGN CHOICE, log 8). -/
opaque deviceSecret : Nat

/-- MAC address of a Coldon port, which the frames it sends carry (Table 10-2; DESIGN CHOICE, log 8). -/
opaque portMac : Nat → Nat

/-- A signature the module makes with its alias 3 key, which follows from the running firmware (R313, R318; DESIGN CHOICE, log 8). -/
opaque aliasSign : (firmware message : List (BitVec 8)) → List (BitVec 8)

/-- The certificate chain of slot 0, as a function of the running firmware's digest (R318; DESIGN CHOICE, log 8). -/
opaque certChain : List (BitVec 8) → List (BitVec 8)

/-- The set of the snoop filter that a line falls in (R49 gives the organisation, not the map; DESIGN CHOICE, log 9). -/
opaque snoopSet : Nat → Nat

/-- Static term of a die's energy estimate at a hottest sensor reading and given its rail monitors, in mW (R291; DESIGN CHOICE, log 11). -/
opaque energyStatic : (die : Nat) → Int → List (Nat × Nat) → Nat

/-- Energy coefficient of an event kind on a die, in mW per event and tick (R291; DESIGN CHOICE, log 11). -/
opaque energyCoeff : (die kind : Nat) → Nat

/-- Fixed term of the module estimate: management subsystem and conversion losses, in mW (R291; DESIGN CHOICE, log 11). -/
opaque energyFixed : Nat

/-- For an input whose reciprocal FP32 does not represent: whether FRCP returns the neighbour above (R152; DESIGN CHOICE, log 15). -/
opaque frcpUp : Nat → Bool

/-- As `frcpUp`, for FRSQ (R152; DESIGN CHOICE, log 15). -/
opaque frsqUp : Nat → Bool

/-- Which value within 2 ulp FEXP2 returns, as an offset in ulp from the nearest (R152; DESIGN CHOICE, log 15). -/
opaque fexp2Sel : Nat → Int

/-- As `fexp2Sel`, for FLOG2 (R152; DESIGN CHOICE, log 15). -/
opaque flog2Sel : Nat → Int

/-- Eofaner's signature over a firmware image verifies (R316; the spec gives no image format; DESIGN CHOICE, log 6). -/
opaque fwSigned : List (BitVec 8) → Bool

/-- The signature of the owner with a key hash over a firmware image verifies (R316; DESIGN CHOICE, log 6). -/
opaque fwCosigned : (ownerHash image : List (BitVec 8)) → Bool

/-- SVN of a firmware image, 0 to 128 (R316; DESIGN CHOICE, log 6). -/
opaque fwSvn : List (BitVec 8) → Nat

/-- Digest of a layer of a firmware image (Table 15-2; DESIGN CHOICE, log 6). -/
opaque fwLayer : (layer : Nat) → List (BitVec 8) → List (BitVec 8)

/-- STATUS of a response where the spec states only its CAUSE or only that the command is refused, by kind: picks one of Table 0-4's statuses other than OK
(DESIGN CHOICE, log 28). -/
opaque openStatus : Nat → BitVec 8

/-- Revision string of a firmware image (R59; DESIGN CHOICE, log 19). -/
opaque fwRevision : List (BitVec 8) → List (BitVec 8)

/-- The Command Effects Log (R59 names it and gives no contents; DESIGN CHOICE, log 19). -/
opaque commandEffectsLog : List (BitVec 8)

/-- The user-visible lines that a metadata line describes: the first and how many (R280; Table 13-2 gives the entries, not their places; DESIGN CHOICE, log 21). -/
opaque metaDescribes : Nat → Nat × Nat

/-- Sort key of the order in which an operation adds its terms: the run, the result element, the term (R151, R154, R176; DESIGN CHOICE, log 16). -/
opaque orderKey : (run elem item : Nat) → BitVec 64

/-- VECTOR_ISSUE slots of an operation whose vector work the spec does not list, by opcode and elements (R194, Table 11-2; DESIGN CHOICE, log 33). -/
opaque vectorSlots : (opcode elements : Nat) → Nat

end Sys2Proof.Config
end

