-- ==== Sys2Proof/Machine/Crypto.lean ====
section
/-! DEFINITION. The published algorithms that the spec names: SHA-512, HMAC, HKDF (R202, R233), AES-256 with GCM (R226) and XTS (R321), ECDH and ECDSA on P-521 (R230, R233). -/

namespace Sys2Proof.Machine

/-! ### SHA-512, HMAC and HKDF -/

/-- The 80 round constants of SHA-512. -/
def sha512K : List Nat :=
  [0x428a2f98d728ae22, 0x7137449123ef65cd, 0xb5c0fbcfec4d3b2f, 0xe9b5dba58189dbbc, 0x3956c25bf348b538] ++
  [0x59f111f1b605d019, 0x923f82a4af194f9b, 0xab1c5ed5da6d8118, 0xd807aa98a3030242, 0x12835b0145706fbe] ++
  [0x243185be4ee4b28c, 0x550c7dc3d5ffb4e2, 0x72be5d74f27b896f, 0x80deb1fe3b1696b1, 0x9bdc06a725c71235] ++
  [0xc19bf174cf692694, 0xe49b69c19ef14ad2, 0xefbe4786384f25e3, 0xfc19dc68b8cd5b5, 0x240ca1cc77ac9c65] ++
  [0x2de92c6f592b0275, 0x4a7484aa6ea6e483, 0x5cb0a9dcbd41fbd4, 0x76f988da831153b5, 0x983e5152ee66dfab] ++
  [0xa831c66d2db43210, 0xb00327c898fb213f, 0xbf597fc7beef0ee4, 0xc6e00bf33da88fc2, 0xd5a79147930aa725] ++
  [0x6ca6351e003826f, 0x142929670a0e6e70, 0x27b70a8546d22ffc, 0x2e1b21385c26c926, 0x4d2c6dfc5ac42aed] ++
  [0x53380d139d95b3df, 0x650a73548baf63de, 0x766a0abb3c77b2a8, 0x81c2c92e47edaee6, 0x92722c851482353b] ++
  [0xa2bfe8a14cf10364, 0xa81a664bbc423001, 0xc24b8b70d0f89791, 0xc76c51a30654be30, 0xd192e819d6ef5218] ++
  [0xd69906245565a910, 0xf40e35855771202a, 0x106aa07032bbd1b8, 0x19a4c116b8d2d0c8, 0x1e376c085141ab53] ++
  [0x2748774cdf8eeb99, 0x34b0bcb5e19b48a8, 0x391c0cb3c5c95a63, 0x4ed8aa4ae3418acb, 0x5b9cca4f7763e373] ++
  [0x682e6ff3d6b2b8a3, 0x748f82ee5defb2fc, 0x78a5636f43172f60, 0x84c87814a1f0ab72, 0x8cc702081a6439ec] ++
  [0x90befffa23631e28, 0xa4506cebde82bde9, 0xbef9a3f7b2c67915, 0xc67178f2e372532b, 0xca273eceea26619c] ++
  [0xd186b8c721c0c207, 0xeada7dd6cde0eb1e, 0xf57d4f7fee6ed178, 0x6f067aa72176fba, 0xa637dc5a2c898a6] ++
  [0x113f9804bef90dae, 0x1b710b35131c471b, 0x28db77f523047d84, 0x32caab7b40c72493, 0x3c9ebe0a15c9bebc] ++
  [0x431d67c49c100d4c, 0x4cc5d4becb3e42b6, 0x597f299cfc657e2a, 0x5fcb6fab3ad6faec, 0x6c44198c4a475817]

/-- The initial hash value of SHA-512. -/
def sha512H : List Nat :=
  [0x6a09e667f3bcc908, 0xbb67ae8584caa73b, 0x3c6ef372fe94f82b, 0xa54ff53a5f1d36f1, 0x510e527fade682d1] ++
  [0x9b05688c2b3e6c1f, 0x1f83d9abfb41bd6b, 0x5be0cd19137e2179]

def rotr64 (x n : Nat) : Nat := (x >>> n ||| x <<< (64 - n)) % 2 ^ 64

/-- Big-endian number of a byte string. -/
def beNat (b : Bytes) : Nat := b.foldl (fun a x => a * 256 + x.toNat) 0

/-- Big-endian bytes of a number. -/
def beBytes (n v : Nat) : Bytes := (leBytes n v).reverse

/-- Message schedule: the words so far, newest first, and how many to add. -/
def shaSched : Nat → List Nat → List Nat
  | 0, w => w
  | n + 1, w =>
    let a := w[1]?.getD 0
    let b := w[14]?.getD 0
    let s1 := rotr64 a 19 ^^^ rotr64 a 61 ^^^ (a >>> 6)
    let s0 := rotr64 b 1 ^^^ rotr64 b 8 ^^^ (b >>> 7)
    shaSched n (((s1 + w[6]?.getD 0 + s0 + w[15]?.getD 0) % 2 ^ 64) :: w)

/-- The eight working variables of SHA-512. -/
structure ShaSt where
  a : Nat
  b : Nat
  c : Nat
  d : Nat
  e : Nat
  f : Nat
  g : Nat
  h : Nat

def shaRound (s : ShaSt) (kw : Nat) : ShaSt :=
  let t1 := s.h + (rotr64 s.e 14 ^^^ rotr64 s.e 18 ^^^ rotr64 s.e 41) + ((s.e &&& s.f) ^^^ ((2 ^ 64 - 1 - s.e) &&& s.g)) + kw
  let t2 := (rotr64 s.a 28 ^^^ rotr64 s.a 34 ^^^ rotr64 s.a 39) + ((s.a &&& s.b) ^^^ (s.a &&& s.c) ^^^ (s.b &&& s.c))
  { a := (t1 + t2) % 2 ^ 64, b := s.a, c := s.b, d := s.c, e := (s.d + t1) % 2 ^ 64, f := s.e, g := s.f, h := s.g }

/-- One 128-byte block. -/
def shaBlock (h : List Nat) (blk : Bytes) : List Nat :=
  let w0 := ((List.range 16).map (fun i => beNat (slice blk (8 * i) 8))).reverse
  let w := (shaSched 64 w0).reverse
  let at_ := fun i => h[i]?.getD 0
  let s := (sha512K.zip w).foldl (fun s x => shaRound s (x.1 + x.2))
    { a := at_ 0, b := at_ 1, c := at_ 2, d := at_ 3, e := at_ 4, f := at_ 5, g := at_ 6, h := at_ 7 }
  (h.zip [s.a, s.b, s.c, s.d, s.e, s.f, s.g, s.h]).map (fun x => (x.1 + x.2) % 2 ^ 64)

/-- SHA-512 (FIPS 180-4). -/
def sha512 (m : Bytes) : Bytes :=
  let n := m.length
  let z := (128 - (n + 17) % 128) % 128
  let p := m ++ [0x80] ++ List.replicate z 0 ++ beBytes 16 (8 * n)
  let h := (List.range (p.length / 128)).foldl (fun h i => shaBlock h (slice p (128 * i) 128)) sha512H
  h.flatMap (beBytes 8)

/-- HMAC-SHA-512 (FIPS 198-1). -/
def hmac512 (key m : Bytes) : Bytes :=
  let k := slice (if key.length ≤ 128 then key else sha512 key) 0 128
  let x := fun (c : Byte) => k.map (fun b => b ^^^ c)
  sha512 (x 0x5c ++ sha512 (x 0x36 ++ m))

/-- HKDF-SHA-512 for at most 64 bytes (RFC 5869). -/
def hkdf512 (ikm salt info : Bytes) (n : Nat) : Bytes := (hmac512 (hmac512 salt ikm) (info ++ [1])).take n

/-! ### AES-256 -/

/-- The S-box of AES: entry i in bits [8i + 7:8i]. -/
def aesS : Nat :=
  0xc072a49cafa2d4adf04759fa7dc982ca76abd7fe2b670130c56f6bf27b777c63 * 2 ^ 0 +
  0x75b227ebe28012079a059618c323c7041531d871f1e5a534ccf73f362693fdb7 * 2 ^ 256 +
  0xcf584c4a39becb6a5bb1fc20ed00d153842fe329b3d63b52a05a6e1b1a2c8309 * 2 ^ 512 +
  0xd2f3ff1021dab6bcf5389d928f40a351a89f3c507f02f94585334d43fbaaefd0 * 2 ^ 768 +
  0xdb0b5ede14b8ee4688902a22dc4f816073195d643d7ea7c41744975fec130ccd * 2 ^ 1024 +
  0x8ae7a65eaf4566ca94ed58d6d37c8e779e4959162acd3c25c2406490a3a32e0 * 2 ^ 1280 +
  0x9e1dc186b95735610ef6034866b53e708a8bbd4b1f74dde8c6b4a61c2e2578ba * 2 ^ 1536 +
  0x16bb54b00f2d99416842e6bf0d89a18cdf2855cee9871e9b948ed9691198f8e1 * 2 ^ 1792

/-- The inverse S-box of AES. -/
def aesInvS : Nat :=
  0xcbe9dec444438e3487ff2f9b8239e37cfbd7f3819ea340bf38a53630d56a0952 * 2 ^ 0 +
  0x25d18b6d49a25b76b224d92866a12e084ec3fa420b954cee3d23c2a632947b54 * 2 ^ 256 +
  0x849d8da75746155edab9edfd5048706c92b6655dcc5ca4d41698688664f6f872 * 2 ^ 512 +
  0x6b8a130103bdafc1020f3fca8f1e2cd00645b3b80558e4f70ad3bc8c00abd890 * 2 ^ 768 +
  0x6edf751ce837f9e28535ade72274ac9673e6b4f0cecff297eadc674f4111913a * 2 ^ 1024 +
  0xf45acd78fec0db9a2079d2c64b3e56fc1bbe18aa0e62b76f89c5291d711af147 * 2 ^ 1280 +
  0xef9cc9939f7ae52d0d4ab519a97f51605fec8027591012b131c7078833a8dd1f * 2 ^ 1536 +
  0x7d0c2155631469e126d677ba7e042b17619953833cbbebc8b0f52aae4d3be0a0 * 2 ^ 1792

def aesSub (x : Nat) : Nat := (aesS >>> (8 * x)) % 256
def aesInvSub (x : Nat) : Nat := (aesInvS >>> (8 * x)) % 256

/-- Multiplication by x in AES's field. -/
def xtime (a : Nat) : Nat := if a < 128 then 2 * a else (2 * a) ^^^ 0x11b

/-- Product of a by a constant below 16. -/
def gmul (c a : Nat) : Nat :=
  let a2 := xtime a
  let a4 := xtime a2
  let a8 := xtime a4
  (if c.testBit 0 then a else 0) ^^^ (if c.testBit 1 then a2 else 0) ^^^ (if c.testBit 2 then a4 else 0) ^^^ (if c.testBit 3 then a8 else 0)

/-- The 60 words of the key schedule, as byte lists; newest first. -/
def aesExpand : Nat → List (List Nat) → List (List Nat)
  | 0, w => w
  | n + 1, w =>
    let i := w.length
    let t := w[0]?.getD []
    let t := if i % 8 = 0 then
        match t with
        | [a, b, c, d] => [aesSub b ^^^ 2 ^ (i / 8 - 1), aesSub c, aesSub d, aesSub a]
        | _ => t
      else if i % 8 = 4 then t.map aesSub else t
    aesExpand n (((w[7]?.getD []).zip t).map (fun x => x.1 ^^^ x.2) :: w)

/-- The 15 round keys of a 32-byte key, 16 bytes each. -/
def aesKeys (key : Bytes) : List (List Nat) :=
  let w := (aesExpand 52 ((List.range 8).map (fun i => (slice key (4 * i) 4).map (·.toNat))).reverse).reverse
  (List.range 15).map (fun r => (w.drop (4 * r)).take 4 |>.flatten)

def xorNats (a b : List Nat) : List Nat := (a.zip b).map (fun x => x.1 ^^^ x.2)

/-- ShiftRows by columns: byte 4c + r comes from column c + k·r. -/
def shiftRows (k : Nat) (s : List Nat) : List Nat := (List.range 16).map (fun i => s[4 * ((i / 4 + k * (i % 4)) % 4) + i % 4]?.getD 0)

/-- MixColumns with the four coefficients of its matrix's first row. -/
def mixCols (m : List Nat) (s : List Nat) : List Nat :=
  (List.range 16).map (fun i => (List.range 4).foldl (fun a j => a ^^^ gmul (m[(j + 4 - i % 4) % 4]?.getD 0) (s[4 * (i / 4) + j]?.getD 0)) 0)

/-- AES-256 encryption of a 16-byte block under a key schedule (FIPS 197). -/
def aesEnc (ks : List (List Nat)) (b : List Nat) : List Nat :=
  let s := xorNats b (ks[0]?.getD [])
  let s := (List.range 13).foldl (fun s r => xorNats (mixCols [2, 3, 1, 1] (shiftRows 1 (s.map aesSub))) (ks[r + 1]?.getD [])) s
  xorNats (shiftRows 1 (s.map aesSub)) (ks[14]?.getD [])

/-- AES-256 decryption of a block. -/
def aesDec (ks : List (List Nat)) (b : List Nat) : List Nat :=
  let s := xorNats b (ks[14]?.getD [])
  let s := (List.range 13).foldl (fun s r => mixCols [14, 11, 13, 9] (xorNats ((shiftRows 3 s).map aesInvSub) (ks[13 - r]?.getD []))) s
  xorNats ((shiftRows 3 s).map aesInvSub) (ks[0]?.getD [])

def natsOf (b : Bytes) : List Nat := b.map (·.toNat)
def bytesOf (l : List Nat) : Bytes := l.map (BitVec.ofNat 8)

/-! ### AES-256-GCM (SP 800-38D), with 96-bit nonces -/

/-- Product in GHASH's field, of blocks as big-endian numbers. -/
def ghashMul (x y : Nat) : Nat :=
  ((List.range 128).foldl (fun (acc : Nat × Nat) i =>
    let z := if x.testBit (127 - i) then acc.1 ^^^ acc.2 else acc.1
    (z, if acc.2.testBit 0 then (acc.2 >>> 1) ^^^ (0xe1 <<< 120) else acc.2 >>> 1)) (0, y)).1

/-- Zero-pads to whole 16-byte blocks. -/
def pad16 (b : Bytes) : Bytes := b ++ List.replicate ((16 - b.length % 16) % 16) 0

def ghash (h : Nat) (b : Bytes) : Nat := (List.range (b.length / 16)).foldl (fun y i => ghashMul (y ^^^ beNat (slice b (16 * i) 16)) h) 0

/-- Key stream block of a counter. -/
def gcmBlock (ks : List (List Nat)) (nonce : Bytes) (ctr : Nat) : Bytes := bytesOf (aesEnc ks (natsOf (slice nonce 0 12 ++ beBytes 4 ctr)))

/-- XOR of byte strings of one length. -/
def xorB (a b : Bytes) : Bytes := (a.zip b).map (fun x => x.1 ^^^ x.2)

/-- Ciphertext and tag of a payload. -/
def gcmSeal (key nonce aad m : Bytes) : Bytes × Bytes :=
  let ks := aesKeys key
  let ct := xorB m ((List.range ((m.length + 15) / 16)).flatMap (fun i => gcmBlock ks nonce (i + 2)))
  let h := beNat (bytesOf (aesEnc ks (List.replicate 16 0)))
  let s := ghash h (pad16 aad ++ pad16 ct ++ beBytes 8 (8 * aad.length) ++ beBytes 8 (8 * ct.length))
  (ct, xorB (beBytes 16 s) (gcmBlock ks nonce 1))

/-! ### AES-256-XTS (IEEE 1619) -/

/-- Multiplication of a tweak, as a little-endian number, by the primitive element. -/
def xtsNext (t : Nat) : Nat := if t.testBit 127 then ((2 * t) % 2 ^ 128) ^^^ 0x87 else 2 * t

/-- Tweak of 16-byte block j of a data unit. -/
def xtsTweak (ks2 : List (List Nat)) (unit : Bytes) (j : Nat) : Nat :=
  (List.range j).foldl (fun t _ => xtsNext t) (leNat (bytesOf (aesEnc ks2 (natsOf (slice unit 0 16)))))

/-- Encrypts (`dec` false) or decrypts whole 16-byte blocks of a data unit, the first of them block `first`, under a 64-byte key. -/
def xts (dec : Bool) (key unit : Bytes) (first : Nat) (m : Bytes) : Bytes :=
  let k1 := aesKeys (slice key 0 32)
  let t0 := xtsTweak (aesKeys (slice key 32 32)) unit first
  ((List.range (m.length / 16)).foldl (fun (acc : Bytes × Nat) i =>
    let t := leBytes 16 acc.2
    let x := natsOf (xorB (slice m (16 * i) 16) t)
    (acc.1 ++ xorB (bytesOf (if dec then aesDec k1 x else aesEnc k1 x)) t, xtsNext acc.2)) ([], t0)).1

/-! ### P-521 (FIPS 186-5, SP 800-186) -/

def p521 : Nat := 2 ^ 521 - 1

/-- Order of the base point. -/
def n521 : Nat := 0x1fffffffffffffffffffffffffffffffffffffffffffffffffffffffffffffffffa * 2 ^ 256 +
  0x51868783bf2f966b7fcc0148f709a5d03bb5c9b8899c47aebb6fb71e91386409

def b521 : Nat := 0x51953eb9618e1c9a1f929a21a0b68540eea2da725b99b315f3b8b489918ef109e1 * 2 ^ 256 +
  0x56193951ec7e937b1652c0bd3bb1bf073573df883d2c34f1ef451fd46b503f00

/-- The base point. -/
def gx521 : Nat := 0xc6858e06b70404e9cd9e3ecb662395b4429c648139053fb521f828af606b4d3dba * 2 ^ 256 +
  0xa14b5e77efe75928fe1dc127a2ffa8de3348b3c1856a429bf97e7e31c2e5bd66
def gy521 : Nat := 0x11839296a789a3bc0045c8a5fb42c7d1bd998f54449579b446817afbd17273e662c * 2 ^ 256 +
  0x97ee72995ef42640c550b9013fad0761353c7086a272c24088be94769fd16650

/-- A power modulo m; fuel is the exponent's length in bits. -/
def powMod (m : Nat) : Nat → Nat → Nat → Nat
  | 0, _, _ => 1 % m
  | n + 1, b, e => let r := powMod m n (b * b % m) (e / 2); if e % 2 = 1 then r * b % m else r

def invMod (m a : Nat) : Nat := powMod m 521 (a % m) (m - 2)

/-- A point of the curve in Jacobian coordinates; Z = 0 is the point at infinity. -/
structure ECPt where
  x : Nat
  y : Nat
  z : Nat

def ECPt.inf : ECPt := ⟨1, 1, 0⟩

def sub521 (a b : Nat) : Nat := (a + p521 - b % p521) % p521

def ECPt.double (p : ECPt) : ECPt :=
  let zz := p.z * p.z % p521
  let yy := p.y * p.y % p521
  let b := p.x * yy % p521
  let a := 3 * (sub521 p.x zz) * (p.x + zz) % p521
  let x := sub521 (a * a % p521) (8 * b)
  ⟨x, sub521 (a * sub521 (4 * b) x % p521) (8 * (yy * yy % p521)), 2 * p.y * p.z % p521⟩

def ECPt.add (p q : ECPt) : ECPt :=
  if p.z = 0 then q
  else if q.z = 0 then p
  else
    let z1 := p.z * p.z % p521
    let z2 := q.z * q.z % p521
    let u1 := p.x * z2 % p521
    let u2 := q.x * z1 % p521
    let s1 := p.y * (q.z * z2 % p521) % p521
    let s2 := q.y * (p.z * z1 % p521) % p521
    if u1 = u2 then (if s1 = s2 then p.double else ECPt.inf)
    else
      let h := sub521 u2 u1
      let r := sub521 s2 s1
      let hh := h * h % p521
      let hhh := h * hh % p521
      let v := u1 * hh % p521
      let x := sub521 (r * r % p521) (hhh + 2 * v)
      ⟨x, sub521 (r * sub521 v x % p521) (s1 * hhh % p521), h * (p.z * q.z % p521) % p521⟩

/-- k times a point, over the n low bits of k. -/
def ECPt.smul (p : ECPt) (n k : Nat) : ECPt :=
  (List.range n).foldl (fun acc i => let d := acc.double; if k.testBit (n - 1 - i) then d.add p else d) ECPt.inf

/-- Affine coordinates. -/
def ECPt.affine (p : ECPt) : Option (Nat × Nat) :=
  if p.z = 0 then none
  else
    let i := invMod p521 p.z
    let ii := i * i % p521
    some (p.x * ii % p521, p.y * (ii * i % p521) % p521)

def base521 : ECPt := ⟨gx521, gy521, 1⟩

/-- An uncompressed public key that is a point of the curve. -/
def ecPoint (key : Bytes) : Option ECPt :=
  let x := beNat (slice key 1 66)
  let y := beNat (slice key 67 66)
  if key.length = 133 ∧ key.head? = some 4 ∧ x < p521 ∧ y < p521 ∧ y * y % p521 = ((x * x % p521) * x + (p521 - 3) * x + b521) % p521 then some ⟨x, y, 1⟩
  else none

/-- The uncompressed public key of a private key (133 bytes). -/
def ecPublic (d : Nat) : Bytes :=
  match (base521.smul 521 (d % n521)).affine with
  | some (x, y) => [4] ++ beBytes 66 x ++ beBytes 66 y
  | none => List.replicate 133 0

/-- The module's device identity public key (R312). -/
def deviceKey : Bytes := ecPublic Config.deviceSecret

/-- ECDH: the 66-byte x-coordinate of the shared point. -/
def ecdh (d : Nat) (peer : Bytes) : Option Bytes :=
  (ecPoint peer).bind (fun q => ((q.smul 521 (d % n521)).affine).map (fun a => beBytes 66 a.1))

/-- ECDSA verification of r and s, 66 bytes each, over a digest of at most 64 bytes. -/
def ecdsaVerify (key digest sig : Bytes) : Bool :=
  let r := beNat (slice sig 0 66)
  let s := beNat (slice sig 66 66)
  match ecPoint key with
  | none => false
  | some q =>
    if sig.length ≠ 132 ∨ r = 0 ∨ n521 ≤ r ∨ s = 0 ∨ n521 ≤ s then false
    else
      let w := invMod n521 s
      match ((base521.smul 521 (beNat digest * w % n521)).add (q.smul 521 (r * w % n521))).affine with
      | some (x, _) => x % n521 == r
      | none => false

/-- ECDSA signature with a private key and a per-signature secret number (R230). -/
def ecdsaSign (d k : Nat) (digest : Bytes) : Bytes :=
  let k := k % (n521 - 1) + 1
  let r := match (base521.smul 521 k).affine with
    | some (x, _) => x % n521
    | none => 0
  beBytes 66 r ++ beBytes 66 (invMod n521 k * (beNat digest + r * d) % n521)

end Sys2Proof.Machine
end

