-- ==== Sys2Proof/Machine/Mem.lean ====
section
/-! DEFINITION. Memory as a canonical list of cells, sets of line numbers as rising lists, and sparse tables.
An address that no cell lists reads 0: a 256-byte unit that was never written reads as zero (R279). -/

namespace Sys2Proof.Machine

/-- Bytes by address: addresses strictly rising, no cell equal to 0. -/
abbrev Memory := List Host.Cell

/-- The canonical form of a memory. -/
def Memory.wf : Memory → Bool
  | [] => true
  | c :: t => c.2 != 0 && t.all (fun d => c.1 < d.1) && Memory.wf t

/-- The byte at an address; an unlisted address reads 0 (R279) (DEDUCED, log 13). -/
def memRead : Memory → Nat → Byte
  | [], _ => 0
  | c :: t, a => if c.1 = a then c.2 else memRead t a

/-- The cells that the bytes `bs` at `base` make: one for each byte that is not 0. -/
def cellsOf : Nat → Bytes → Memory
  | _, [] => []
  | a, b :: t => if b = 0 then cellsOf (a + 1) t else (a, b) :: cellsOf (a + 1) t

/-- The cells of `m` from `base` to `base + n - 1`. -/
def memWindow (m : Memory) (base n : Nat) : Memory :=
  m.filter (fun c => decide (base ≤ c.1) && decide (c.1 < base + n))

/-- Memory with the cells of `w`, all from `base` to `base + n - 1`, in place of what it held there. -/
def memReplace (m : Memory) (base n : Nat) (w : Memory) : Memory :=
  m.filter (fun c => decide (c.1 < base)) ++ w ++ m.filter (fun c => decide (base + n ≤ c.1))

/-- Memory with the bytes `bs` written at `base`. -/
def memWrite (m : Memory) (base : Nat) (bs : Bytes) : Memory :=
  memReplace m base bs.length (cellsOf base bs)

/-- Memory with `n` bytes from `base` cleared to 0. -/
def memClear (m : Memory) (base n : Nat) : Memory := memReplace m base n []

/-- `dst` with the `n` bytes of `src` at `base` copied to the same place. -/
def memCopy (src dst : Memory) (base n : Nat) : Memory :=
  memReplace dst base n (memWindow src base n)

/-- The `n` bytes from `base`. -/
def memBytes (m : Memory) (base n : Nat) : Bytes :=
  let w := memWindow m base n
  (List.range n).map (fun i => memRead w (base + i))

/-- A set of numbers (lines, units) as a strictly rising list. -/
abbrev NSet := List Nat

/-- `a` is in the set. -/
def setHas (s : NSet) (a : Nat) : Bool := s.any (· == a)

/-- The set with `a`. -/
def setAdd (s : NSet) (a : Nat) : NSet :=
  s.filter (fun x => decide (x < a)) ++ [a] ++ s.filter (fun x => decide (a < x))

/-- The set without `a`. -/
def setDel (s : NSet) (a : Nat) : NSet := s.filter (· != a)

/-- The set with or without `a`. -/
def setPut (s : NSet) (a : Nat) (on : Bool) : NSet := if on then setAdd s a else setDel s a

/-- The set without the `n` numbers from `base`. -/
def setClear (s : NSet) (base n : Nat) : NSet :=
  s.filter (fun x => decide (x < base) || decide (base + n ≤ x))

/-- The set with all `n` numbers from `base`. -/
def setFill (s : NSet) (base n : Nat) : NSet :=
  s.filter (fun x => decide (x < base)) ++ (List.range n).map (base + ·) ++
    s.filter (fun x => decide (base + n ≤ x))

/-- The set with every number of a list. -/
def setUnion (s : NSet) (l : List Nat) : NSet := l.foldl setAdd s

/-- `dst` with its numbers from `base` to `base + n - 1` replaced by those of `src`. -/
def setCopy (src dst : NSet) (base n : Nat) : NSet :=
  dst.filter (fun x => decide (x < base)) ++
    src.filter (fun x => decide (base ≤ x) && decide (x < base + n)) ++
    dst.filter (fun x => decide (base + n ≤ x))

/-- A sparse table: an index that is not listed holds the table's default. -/
abbrev Tab (β : Type) := List (Nat × β)

/-- The entry of index `i`, if listed. -/
def tabFind {β : Type} (t : Tab β) (i : Nat) : Option β :=
  (t.find? (fun e => e.1 == i)).map (·.2)

/-- The entry of index `i`, `d` when none is listed. -/
def tabGet {β : Type} (d : β) (t : Tab β) (i : Nat) : β := (tabFind t i).getD d

/-- The table with entry `v` at index `i`, indices rising. -/
def tabSet {β : Type} (t : Tab β) (i : Nat) (v : β) : Tab β :=
  t.filter (fun e => decide (e.1 < i)) ++ [(i, v)] ++ t.filter (fun e => decide (i < e.1))

/-- The table without index `i`. -/
def tabDel {β : Type} (t : Tab β) (i : Nat) : Tab β := t.filter (fun e => e.1 != i)

/-- The table with `f` applied to the entry of index `i`. -/
def tabMod {β : Type} (d : β) (t : Tab β) (i : Nat) (f : β → β) : Tab β :=
  tabSet t i (f (tabGet d t i))

end Sys2Proof.Machine
end

