-- ==== Sys2Proof/Machine/State.lean ====
section
/-! DEFINITION. The state of the module, as plain data: every register, buffer, queue and table the spec gives it, the queue of waiting commands, and what it has sent.
A `Tab` holds only the entries that differ from their reset value. -/

namespace Sys2Proof.Machine

/-! ### The prompt book, as its sections say (Tables 16-1 to 16-13) -/

/-- PARTITIONS entry (Table 16-5). -/
structure PbPart where
  num : Nat
  keyOnReset : Bool
  orphanStale : Bool
  rt : Bool
  slotsMin : Nat
  ringFirst : Nat
  ringCount : Nat
  ldMask : Nat
deriving DecidableEq, Repr, Inhabited

/-- RANGES entry (Table 16-6). -/
structure PbRange where
  part : Nat
  kind : Nat
  hint : Nat
  aptBf16 : Bool
  aperture : Bool
  regionId : Nat
  maBase : Nat
  size : Nat
  ldMask : Nat
deriving DecidableEq, Repr, Inhabited

/-- RINGS entry (Table 16-7). -/
structure PbRing where
  ring : Nat
  part : Nat
  cqLog2 : Nat
  sqLog2 : Nat
  maxInflight : Nat
  vector : Nat
  intLd : Nat
  sqBase : Nat
  cqBase : Nat
deriving DecidableEq, Repr, Inhabited

/-- VECTORS entry (Table 16-8). -/
structure PbVector where
  part : Nat
  vector : Nat
  coalCount : Nat
  coalTime : Nat
deriving DecidableEq, Repr, Inhabited

/-- BUDGETS entry (Table 16-10). -/
structure PbBudget where
  activity : Nat
  value : List Nat
deriving DecidableEq, Repr, Inhabited

/-- PORTS entry (Table 16-9). -/
structure PbPort where
  port : Nat
  maxX4 : Bool
  maxRate : Nat
  sris : Bool
  enable : Bool
  ldCount : Nat
  biTimeout : Nat
  ldCap : List Nat
deriving DecidableEq, Repr, Inhabited

/-- TIERS entry (Table 16-11); `part` 255 is the module entry. -/
structure PbTier where
  part : Nat
  quota : Nat
  nearShare : Nat
  pinLimit : Nat
deriving DecidableEq, Repr, Inhabited

/-- Region entry (Tables 9-1, 16-12), with its DIGEST (R331). -/
structure PbRegion where
  rid : Nat
  kind : Nat
  mode : Nat
  nslots : Nat
  holderHint : Nat
  size : Nat
  stripeBase : Nat
  home : Nat
  altHome : Nat
  owner : Nat
  slotWait : Nat
  members : List Nat
  digest : Nat
deriving DecidableEq, Repr, Inhabited

/-- Reduction group (R222, Table 16-12): members are (module, partition) in rank order. -/
structure PbGroup where
  group : Nat
  joinLimit : Nat
  members : List (Nat × Nat)
deriving DecidableEq, Repr, Inhabited

/-- Coldon port entry (Table 16-13). -/
structure PbCldPort where
  port : Nat
  ip : Nat
  gwMac : Nat
  vlan : Nat
  pcp : Nat
  dscp : Nat
  enable : Bool
  pfcEn : Bool
deriving DecidableEq, Repr, Inhabited

/-- Coldon peer entry (Table 16-13). -/
structure PbPeer where
  moduleId : Nat
  ips : List Nat
  keyHash : Bytes
deriving DecidableEq, Repr, Inhabited

/-- A prompt book. -/
structure PromptBook where
  svn : Nat := 0
  targetSerial : Bytes := []
  variant : Nat := 0
  buildId : Nat := 0
  ownerKey : Bytes := []
  partitions : List PbPart := []
  ranges : List PbRange := []
  rings : List PbRing := []
  vectors : List PbVector := []
  budgets : List PbBudget := []
  ports : List PbPort := []
  tiers : List PbTier := []
  moduleId : Nat := 0
  sharePct : Nat := 0
  defaultMode : Nat := 0
  regions : List PbRegion := []
  groups : List PbGroup := []
  peakW : Nat := 0
  sustainedW : Nat := 0
  dieAW : Nat := 0
  dieBW : Nat := 0
  hubW : Nat := 0
  deferLimit : Nat := 0
  rasCfg : Nat := 0
  dctlCfg : Nat := 0
  nctlCfg : Nat := 0
  ideRequired : Nat := 0
  injectOk : Bool := false
  mark1 : Nat := 0
  mark2 : Nat := 0
  mark3 : Nat := 0
  wqMark : Nat := 0
  stallLimit : Nat := 0
  udpPort : Nat := 0
  rxWindow : Nat := 0
  ackDelayNs : Nat := 0
  rtoInitNs : Nat := 0
  rtoMaxNs : Nat := 0
  idlePingUs : Nat := 0
  livenessUs : Nat := 0
  helloRetryUs : Nat := 0
  cldPorts : List PbCldPort := []
  peers : List PbPeer := []
deriving DecidableEq, Repr, Inhabited

/-! ### Clocks (R30, Table 1-8) -/

/-- The local counters of the clock domains. -/
structure Clocks where
  running : Bool := false
  arith : Nat × Nat := (0, 0)
  cmesh : Nat × Nat := (0, 0)
  near : Nat × Nat := (0, 0)
  deep : Nat := 0
  hmesh : Nat := 0
  link : Tab Nat := []
  peer : Tab Nat := []
  d2d : Tab Nat := []
  mgmt : Nat := 0
deriving DecidableEq, Repr, Inhabited

/-! ### Host ports and logical devices (chapter 2) -/

/-- State of an IDE stream (R55, R56). -/
inductive IdeSt where
  | none
  | secure
  | insecure
deriving DecidableEq, Repr, Inhabited

/-- One IDE stream: its state, the key in use and the key set programmed next. -/
structure Ide where
  st : IdeSt := .none
  key : Nat := 0
  keySet : Nat := 0
  next : Option (Nat × Nat) := none
deriving DecidableEq, Repr, Inhabited

/-- State of a CXL port's link. -/
inductive LinkSt where
  | detect
  | trained
  | l0
deriving DecidableEq, Repr, Inhabited

/-- A CXL port (R37, R38, R53, R54). `pid`: the PBR identifier that the fabric manager assigns (Table 2-1); no command of the table assigns one. -/
structure Port where
  link : LinkSt := .detect
  rate : Nat := 0
  x8 : Bool := false
  perstLow : Bool := true
  l0At : Nat := 0
  flexCount : Nat := 0
  flexAt : Option Nat := none
  cachemem : Ide := {}
  ioLink : Ide := {}
  selective : Tab Ide := []
  devLoad : Tab Nat := []
  pid : Option Nat := none
deriving DecidableEq, Repr, Inhabited

/-- An HDM decoder (R41, R42). -/
structure Decoder where
  base : Nat := 0
  size : Nat := 0
  skip : Nat := 0
  ways : Nat := 1
  gran : Nat := 256
  bi : Bool := false
  committed : Bool := false
  err : Bool := false
deriving DecidableEq, Repr, Inhabited

/-- An SPDM session (R318): its number and whether FINISH has established it; `phase` counts key updates. -/
structure SpdmSess where
  id : Nat
  established : Bool
  phase : Nat
deriving DecidableEq, Repr, Inhabited

/-- An alert of an LD as an event record (Table 2-7): its handle, and a General Media event when `media`, else a Memory Module event, with the value
that reached the threshold. -/
structure AlertRec where
  handle : Nat
  media : Bool
  value : Int
deriving DecidableEq, Repr

/-- A logical device. `deadLines`: the lines it held when it was declared dead, whose later write-backs are discarded (R50). -/
structure Ld where
  decoders : Tab Decoder := []
  msixEnable : Bool := false
  funcMask : Bool := false
  unmasked : NSet := []
  pend : NSet := []
  dead : Bool := false
  deadLines : NSet := []
  alerts : List AlertRec := []
  alertSeq : Nat := 0
  cdatSeq : Nat := 0
  spdm : List SpdmSess := []
  bmk : Tab Nat := []
  evPolicy : List Bool := []
  alertTemp : Option Nat := none
  alertCe : Option Nat := none
  scan : List Nat := []
deriving DecidableEq, Repr, Inhabited

/-- What a host request does to its line. -/
inductive ReqOp where
  | rd
  | spec
  /-- MemInv and MemInvNT on HDM-DB: the snoop filter alone changes. -/
  | inv
  | wr (data : Bytes) (poison : Bool)
  | wrPtl (data : Bytes) (mask : List Bool) (poison : Bool)
  | apt (bf16 : Bool) (data : Bytes) (poison : Bool)
deriving DecidableEq, Repr

/-- Why a host request waits. -/
inductive ReqWait where
  | snoop
  | deep
  | expand
  | cavern
  | recovery (since : Nat)
deriving DecidableEq, Repr

/-- An outstanding host request (R53). `line` is the target line's number in module addresses, or in the local mapping of a cavern-backed range. -/
structure HostReq where
  id : Nat
  port : Nat
  ld : Nat
  tag : Nat
  dpa : Nat
  part : Nat
  range : Nat
  line : Nat
  op : ReqOp
  mv : Meta
  /-- The request entry comes from the LD's reserve (R53). -/
  reserve : Bool
  wait : ReqWait
  /-- The value that a later access to the line would have changed before the read's data returned (R24): what the read answers. -/
  val : Option (Bytes × Bool) := none
  /-- Its access has been counted (R91): it is counted once, also when it is served again after a recovery. -/
  counted : Bool := false
deriving DecidableEq, Repr

/-- An M2S request as it arrives, before it has an entry (Table 2-3). -/
inductive MemCmd where
  | rd (tag hpa : Nat) (mv : Meta) (errs : List SymErr) (metaLost : Bool)
  | specRd (hpa : Nat)
  | inv (tag hpa : Nat) (mv : Meta)
  | clnEvct (tag hpa : Nat)
  | wr (tag hpa : Nat) (mv : Meta) (data : Bytes) (poison : Bool)
  | wrPtl (tag hpa : Nat) (mv : Meta) (data : Bytes) (mask : List Bool) (poison : Bool)
deriving DecidableEq, Repr

/-- A request that waits in a port's ingress wings queue for an entry (R53). -/
structure Ingress where
  id : Nat
  port : Nat
  ld : Nat
  cmd : MemCmd
deriving DecidableEq, Repr

/-- A snoop-filter entry (R49): holders by LD number (16 × port + LD-ID) with the MetaValue they hold (Any or Shared), broadcast, and allocation order. -/
structure SnoopEnt where
  holders : List (Nat × Meta) := []
  broadcast : Bool := false
  seq : Nat := 0
deriving DecidableEq, Repr, Inhabited

/-- A BISnp that has no BIRsp yet (R49, R50): sent (with the HMESH count at which it left the port) or waiting in the egress queue. -/
structure BiOut where
  line : Nat
  ldIdx : Nat
  inv : Bool
  sentAt : Option Nat
deriving DecidableEq, Repr

/-- A held lower half or a latched upper half of a requester (R12). -/
structure Half where
  rq : Requester
  addr : Nat
  value : Nat
deriving DecidableEq, Repr

/-- The host side. LDs are numbered 16 × port + LD-ID; the FM-owned LD of port p is 128 + p. -/
structure HostSide where
  ports : Tab Port := []
  lds : Tab Ld := []
  reqs : List HostReq := []
  ingress : List Ingress := []
  nextReq : Nat := 0
  snoop : Tab SnoopEnt := []
  snoopSeq : Nat := 0
  bi : List BiOut := []
  held : List Half := []
  latched : List Half := []
deriving DecidableEq, Repr, Inhabited

/-! ### Partitions and cues (chapters 3, 4) -/

/-- States of a cue (Table 4-11). -/
inductive CueSt where
  | idle
  | waiting
  | fetching
  | held
  | late
  | ready
  | done
  | cancelled
deriving DecidableEq, Repr, Inhabited

/-- A cue of the loaded sheet: its fields (Table 4-5) and its progress in the current pass. -/
structure Cue where
  addr : Nat
  blocks : Nat
  layer : Nat
  group : Nat
  alt : Nat
  weight0 : Nat
  look : Nat
  buffer : Bool
  cluster : Nat
  st : CueSt := .idle
  selected : Bool := false
  promoted : Bool := false
  weight : Nat := 0
  /-- Blocks issued so far, in ascending address. -/
  issued : Nat := 0
  /-- Indices of blocks whose read is outstanding. -/
  out : List Nat := []
  /-- Indices of blocks filled, resident or skipped. -/
  placed : List Nat := []
  lateSince : Option Nat := none
  /-- It has been cancelled in its current pass, or its last one (R104). -/
  cut : Bool := false
deriving DecidableEq, Repr, Inhabited

/-- A partition's cue sheet, curtain and counters (Tables 4-6 to 4-10). -/
structure CueSheet where
  loaded : Bool := false
  layerCount : Nat := 0
  curtain : Nat := 0xFFFF
  cues : List Cue := []
  finals : List (Nat × Nat) := []
  late : Nat := 0
  /-- HMESH cycles of cues that have left LATE. -/
  lateCycles : Nat := 0
  waste : Nat := 0
  abandoned : Nat := 0
  skipped : Nat := 0
deriving DecidableEq, Repr, Inhabited

/-- An ACQUIRE pin of a partition (R180, R213): version and slot. -/
structure AcqPin where
  rid : Nat
  version : Nat
  slot : Nat
deriving DecidableEq, Repr

/-- What a running partition reset does at its end (R78, R60), with the counts of its steps. -/
structure ResetJob where
  newKey : Bool
  sanitize : Bool
  /-- Started by a background mailbox command, whose end is BACKGROUND_COMMAND_DONE. -/
  mailbox : Bool
  aborted : Nat
  discarded : Nat
  orphans : Nat
deriving DecidableEq, Repr

/-- A background mailbox command (R60, R61): 0 Sanitize, 1 Secure Erase, 2 Scan Media; on an LD; the lines of a scan. -/
structure BgCmd where
  kind : Nat
  ldIdx : Nat
  base : Nat
  len : Nat
deriving DecidableEq, Repr

/-- Run-time state of a partition (Tables 3-4 to 3-7, 4-2, 4-3). -/
structure Part where
  st : Nat := 4
  resetCount : Nat := 0
  aborts : Nat := 0
  orphanPois : Nat := 0
  orphanStale : Nat := 0
  noPerm : Nat := 0
  sealedWrites : Nat := 0
  aptPartials : Nat := 0
  unmapped : Nat := 0
  biDiscards : Nat := 0
  /-- Corrected errors on the partition's lines since module reset (Table 2-7). -/
  ceCount : Nat := 0
  reset : Option ResetJob := none
  pageHint : Tab Nat := []
  hintReg : Tab Nat := []
  evicting : Tab (Option Nat) := []
  /-- Page ranges, as (first page, pages), that PLACE has set since the EVICT in progress on an entry was last written (R87). -/
  evictPlaced : Tab (List (Nat × Nat)) := []
  pinRefused : Nat := 0
  epochs : Nat := 0
  badWrites : Nat := 0
  cue : CueSheet := {}
  pins : List AcqPin := []
  bg : Option BgCmd := none
deriving DecidableEq, Repr, Inhabited

/-! ### Dispatcher (chapters 3, 7) -/

/-- A ring pair (Tables 3-8 to 3-14). `st` is its STATE, with 0 for IDLE and ACTIVE alike. `total` counts the descriptors passed since the pointers were last set to 0; `lost` those that never complete or completed with a status other than OK (R72). -/
structure Ring where
  sqTail : Nat := 0
  sqHead : Nat := 0
  cqHead : Nat := 0
  cqTail : Nat := 0
  st : Nat := 0
  error : Nat := 0
  mask : Bool := false
  maskedInt : Bool := false
  total : Nat := 0
  lost : NSet := []
  eligibleAt : Option Nat := none
deriving DecidableEq, Repr, Inhabited

/-- Where an admitted operation stands. -/
inductive OpPhase where
  /-- Checked and admitted; its work has not begun. -/
  | admitted
  /-- Its work has begun and needs further steps. -/
  | running
  /-- Its work has ended; its completion is not written yet. -/
  | ended
deriving DecidableEq, Repr, Inhabited

/-- An operation slot in use (R68, R163). -/
structure Op where
  id : Nat
  ring : Nat
  idx : Nat
  seq : Nat
  part : Nat
  opcode : Nat
  tag : Nat
  int : Bool
  okOnly : Bool
  desc : Bytes
  ext : Bytes := []
  rcp : Bytes := []
  /-- Operations that must complete before this one starts (R72). -/
  waits : List Nat := []
  depFailed : Bool := false
  /-- Its completion is on its way to the cavern that backs its ring (R72). -/
  posting : Bool := false
  phase : OpPhase := .admitted
  status : Nat := 0
  detail : Nat := 0
  result : Nat := 0
  degraded : Bool := false
  late : Bool := false
  stall : Nat := 0
  /-- Data of it was closed short twice (R362). -/
  truncated : Bool := false
  /-- It waits for blocks whose cue fills are outstanding: since when, and the blocks (R105). -/
  waitSince : Option Nat := none
  waitBlks : List Nat := []
  /-- It waits for a recovery: the block and since when; and the blocks whose recovery it no longer waits for (R128, R287). -/
  held : Option (Nat × Nat) := none
  given : NSet := []
  /-- Every check of R160 has passed; false while a control input is still on its way. -/
  checked : Bool := false
  checkedAt : Nat := 0
  started : Bool := false
  /-- Admission of a SEAL (R168) has taken place. -/
  sealAdmitted : Bool := false
  /-- An OPTIM with RESEAL whose W range was sealed when it was admitted (R168). -/
  resealed : Bool := false
  /-- Blocks a SEAL, UNSEAL or re-seal has still to do. -/
  work : List Nat := []
  poisoned : Bool := false
  stale : Bool := false
  /-- Cavern and host lines fetched for the operation, by line of the local mapping, with their marks. -/
  got : Tab (Bytes × Bool) := []
  asked : NSet := []
  /-- Cavern writes and fills that are not acknowledged yet. -/
  left : Nat := 0
  /-- A cavern request of the operation met a peer that cannot be reached, or a status that is not OK. -/
  cvnBad : Nat := 0
  /-- Stage of an operation of several stages, its region, region slot and version, and the answer of the home module: status, slot, version. -/
  stage : Nat := 0
  rgn : Nat := 0
  rgnSlot : Nat := 0
  rgnVersion : Nat := 0
  rsp : Option (Nat × Nat × Nat) := none
  /-- Of the SEAL of a cavern region: the slots its blocks name once it is done (R122). -/
  coded : Tab Nat := []
  /-- Bytes granted to it so far at throttled channel pairs (R253), and whether it waits for issue slots (R254). -/
  paid : Tab Nat := []
  issueWait : Bool := false
deriving DecidableEq, Repr

/-- Interrupt coalescing of one (LD, vector) pair (R75). -/
structure Coal where
  ldIdx : Nat
  vector : Nat
  count : Nat
  since : Nat
deriving DecidableEq, Repr

/-- The ring dispatcher (R68). The spec does not say at which ring its first turn starts: `lastRing` is 0 at reset and after a reload, so ring 1 comes first
and ring 0 last (DESIGN CHOICE, log 135). -/
structure Disp where
  rings : Tab Ring := []
  ops : List Op := []
  nextOp : Nat := 0
  lastRing : Nat := 0
  coal : List Coal := []
  /-- Staged operations started in the running admission window, and the first HMESH cycle that no window has covered yet (R298). -/
  starts : Nat := 0
  winFrom : Nat := 1
deriving DecidableEq, Repr, Inhabited

/-! ### Memory (chapters 1, 4, 5, 13) -/

/-- A block-map entry (Table 5-1). MODE 0 RAW, 1 GOLAS-E, 2 LEGACY, 3 ZERO. -/
structure MapEnt where
  gen : Nat := 0
  slot : Nat := 0
  propagated : Bool := false
  sectors : Nat := 16
  mode : Nat := 0
  replica : Bool := false
  fmt : Nat := 0
  check : Nat := 0
deriving DecidableEq, Repr, Inhabited

/-- A coded block inside an egress expander, or queued for it, whose block was recoded meanwhile: the form it has and the requests it serves (R122). -/
structure ExpBlk where
  blk : Nat
  ent : MapEnt
  bytes : Bytes
  marks : NSet
  reqs : List Nat
deriving DecidableEq, Repr

/-- States of a near-tier block other than INVALID (R84). -/
inductive NearSt where
  | clean
  | dirty
  | spec
deriving DecidableEq, Repr, Inhabited

/-- A resident near-tier block. The list that holds it is in order of use, least recently used first. -/
structure NearBlk where
  blk : Nat
  part : Nat
  st : NearSt
  pinned : Bool
  sectors : Nat
  /-- A non-speculative access has hit it since its fill (R104). -/
  hit : Bool
  /-- Sectors of its set that it occupies, in order (R260). -/
  spots : List Nat := []
deriving DecidableEq, Repr

/-- What a merge-buffer entry does to its line (R281). -/
inductive MergeOp where
  | full (data : Bytes) (poison : Bool)
  | part (data : Bytes) (mask : List Bool) (poison : Bool)
  | add (tgtBf16 addBf16 : Bool) (data : Bytes) (poison : Bool)
  /-- A SCATTER_ADD add, by the elements it leaves in the line: rows need not be aligned to elements (R27, R176). -/
  | added (data : Bytes) (mask : List Bool)
  | writeBack (data : Bytes) (poison : Bool)
  | rewrite
deriving DecidableEq, Repr

/-- An entry of a merge buffer, or one held at the tag pipeline for it. -/
structure MergeEnt where
  line : Nat
  op : MergeOp
  /-- Activity charged for the write (R242). -/
  act : Nat
deriving DecidableEq, Repr

/-- A copy in a cluster's cue area (R101) (DESIGN CHOICE, log 107): its bytes in the form it was read in, and its poisoned lines; none while the read that fills
it is outstanding. -/
structure CueCopy where
  cluster : Nat
  part : Nat
  cue : Nat
  blk : Nat
  held : Option (Bytes × NSet) := none
deriving DecidableEq, Repr

/-- An erased range at a channel pair (R324). -/
structure Erased where
  pair : Nat
  part : Nat
  base : Nat
  size : Nat
  next : Nat
  cleared : NSet
deriving DecidableEq, Repr

/-- The memory system. Lines are module address / 64, units / 256, blocks / 4,096, pages / 2 MiB. -/
structure MemSys where
  deep : Memory := []
  near : Memory := []
  deepPoison : NSet := []
  nearPoison : NSet := []
  /-- Source of a poison mark for Get Poison List: 0 Internal, 1 External, 2 Injected. -/
  poisonSrc : Tab Nat := []
  valid : NSet := []
  bmap : Tab MapEnt := []
  tags : List NearBlk := []
  merge : Tab (List MergeEnt) := []
  /-- Subchannels whose writes drain ahead of their reads, by 4 × channel pair + subchannel (R268). -/
  draining : NSet := []
  staging : Tab (List (Nat × Bytes)) := []
  expanding : List ExpBlk := []
  cueArea : List CueCopy := []
  /-- The partition whose sheet the cue runner served last (R100). -/
  cueTurn : Nat := 63
  rdCnt : Tab Nat := []
  wrCnt : Tab Nat := []
  erased : List Erased := []
deriving DecidableEq, Repr, Inhabited

/-! ### Golas (chapter 5) -/

/-- A table slot (Tables 5-4, 5-5). STATE 0 FREE, 1 BUILDING, 2 LIVE, 3 RETIRING. -/
structure GSlot where
  st : Nat := 0
  owner : Nat := 0
  imp : Bool := false
  fmt : Nat := 0
  gen : Nat := 0
  lens : List Nat := []
  /-- Of an imported table: home module, its SLOT and GEN (R123). -/
  home : Nat := 0
  homeSlot : Nat := 0
  homeGen : Nat := 0
  dropped : Bool := false
  /-- Modules that hold a copy of this table (R216). -/
  importers : List Nat := []
  /-- Operation whose SEAL took the slot. -/
  op : Nat := 0
  /-- A table of a cavern region this module is home of: it occupies one of the import slots (R123). -/
  region : Bool := false
  /-- Of an imported table: when it was last used, in the order of uses (R123). -/
  used : Nat := 0
deriving DecidableEq, Repr, Inhabited

/-- A group of a sealed range: its first block, the block past its last, and the slots it names (R119, R122). -/
structure GGroup where
  first : Nat
  past : Nat
  cur : Option Nat
  old : List Nat
deriving DecidableEq, Repr

/-- A sealed range of a partition (R108). -/
structure SealedRange where
  part : Nat
  range : Nat
  fmt : Nat
  replica : Bool
  groups : List GGroup
  /-- SEAL, UNSEAL and re-seal operations on the range, in order of admission (R109). -/
  queue : List Nat
  /-- Operations of the queue behind which a later SEAL was admitted: an UNSEAL among them leaves the range sealed (R109). -/
  keep : List Nat := []
  /-- Of a sealed cavern region, at its home module: the slot that each GOLAS-E block names, by its number in the local mapping; the block-map entries are at the
  holders (R122, R205). -/
  coded : Tab Nat := []
deriving DecidableEq, Repr

/-- Golas state. -/
structure Golas where
  slots : Tab GSlot := []
  sealedRanges : List SealedRange := []
  stale : Nat := 0
  damaged : Nat := 0
  resealRaw : Nat := 0
  legacy : Nat := 0
  /-- Uses of imported tables so far. -/
  useSeq : Nat := 0
deriving DecidableEq, Repr, Inhabited

/-! ### Cavern (chapter 9) -/

/-- States of a version slot (Table 9-4). -/
inductive VSt where
  | free
  | writing
  | current
  | held
deriving DecidableEq, Repr, Inhabited

/-- A version slot at the home module: ACQUIRE pins as (module, partition), base pins of reservations, and the writer (module, request tag or operation, partition). -/
structure VSlot where
  st : VSt := .free
  version : Nat := 0
  pins : List (Nat × Nat) := []
  basePins : Nat := 0
  writer : Option (Nat × Nat × Nat) := none
  /-- Of a WRITING slot: the slot whose base pin its reservation holds (R211). -/
  base : Nat := 0
deriving DecidableEq, Repr, Inhabited

/-- A reservation that waits for a FREE slot (R212). -/
structure Resv where
  module : Nat
  rtag : Nat
  part : Nat
  base : Nat
  since : Nat
deriving DecidableEq, Repr

/-- Who asked the home module: a peer by its request tag, or an operation of this module. -/
inductive Asker where
  | peer (m rtag : Nat)
  | op (id : Nat)
deriving DecidableEq, Repr

/-- What a message about a region asks of its home module (Table 10-4). `whole`: the reservation of a SEAL or UNSEAL; `sealing`: the new version is sealed (R214). -/
inductive HomeDo where
  | reserve (base : Nat) (whole : Bool)
  | commit (base slot : Nat) (sealing : Bool)
  | abandon (slot : Nat)
  | acquire (version : Nat)
  | release
deriving DecidableEq, Repr

/-- A message about a region, at its home module (R210). -/
structure HomeReq where
  asker : Asker
  module : Nat
  rtag : Nat
  part : Nat
  what : HomeDo
deriving DecidableEq, Repr

/-- Run-time state of a cavern region (R209 to R221). -/
structure Region where
  epoch : Nat := 0
  /-- The home module after a promotion. -/
  homeNow : Option Nat := none
  slots : Tab VSlot := []
  waitq : List Resv := []
  /-- Messages that wait while an earlier one waits for ALT_HOME (R210). -/
  inq : List HomeReq := []
  lostMembers : List Nat := []
  /-- This module's units are stale since its last start or reload and it has not rejoined yet (R220, Table 16-18). -/
  unitsStale : Bool := false
  /-- Every other member has been declared unreachable: this module is the lost one (R220). -/
  cutOff : Bool := false
  /-- It rejoined and rebuilds: rows below `rebuildRow`, and those in `rebuilt`, are rebuilt (R220). -/
  rebuilding : Bool := false
  rebuildRow : Nat := 0
  /-- Rows being rebuilt, with the chunks that have not arrived yet, and those of them that cannot be rebuilt whole (R221). -/
  rebuildLeft : Tab Nat := []
  rebuildBad : NSet := []
  rebuilt : NSet := []
  /-- Writes and adds to rows being rebuilt, which wait for their row, as (row, peer, message) (R220). -/
  stalled : List (Nat × Nat × ColdonMsg) := []
  sealedCur : Bool := false
  mirrorLost : Bool := false
deriving DecidableEq, Repr, Inhabited

/-- A REDUCE in flight (R173, R223), from its own descriptor or the first REDUCE_JOIN of a member. -/
structure Redn where
  group : Nat
  rseq : Nat
  /-- The operation of this module's descriptor, once it is admitted. -/
  op : Option Nat := none
  /-- Matched members, by rank, with OP_FLAGS and COUNT of their descriptors. -/
  joined : List (Nat × Nat × Nat) := []
  /-- This member has sent its contributions. -/
  sentData : Bool := false
  /-- Contributions taken, as (rank, element), and the FP32 running sums of the own segment, by element. -/
  got : List (Nat × Nat) := []
  sums : Tab Nat := []
  /-- Result elements in DFMT, by element. -/
  result : Tab Nat := []
  /-- Poisoned elements. -/
  poison : NSet := []
  /-- REASON of a REDUCE_ABORT that arrived before this module's descriptor. -/
  aborted : Option Nat := none
deriving DecidableEq, Repr

/-- What a cavern access is for, and who continues when it ends. -/
inductive CvnFor where
  /-- A host request (R206, R207). -/
  | host (req : Nat)
  /-- A line an operation reads, by its address in the local mapping. -/
  | opRd (op line : Nat)
  /-- A line an operation writes, or a FILL it waits for. -/
  | opWr (op : Nat)
  /-- A member's FILL of a publish (R211). -/
  | fill (op : Nat)
  /-- A block a PLACE fills: its offset in a range-list entry (R89, R167). -/
  | place (op part idx off : Nat)
  /-- A region request of an operation; its answer is kept for it. -/
  | op (op : Nat)
  /-- A block a cue fills (R89, R102). -/
  | cue (part cue block : Nat)
  /-- A block that a cancelled cue was reading (R102). -/
  | cueGone (part : Nat)
  /-- A chunk of 128 lines of a row being rebuilt (R220). -/
  | rebuild (rid row chunk : Nat)
  /-- Lines a peer reads from a unit that is not rebuilt yet (R220). -/
  | serve (peer rtag : Nat)
  /-- WRITE_ACK to a peer once the parity holder has acknowledged (R207). -/
  | ack (peer rtag : Nat)
  /-- An answer of the home module that waits for ALT_HOME (R210). -/
  | answer (peer : Nat) (m : ColdonMsg)
  | answerOp (op : Nat) (status slot version : Nat)
  /-- Changes that ALT_HOME is to acknowledge, with nobody to answer (R210). -/
  | mirror
  /-- A table import into a slot (R216). -/
  | table (slot : Nat)
  /-- The reservation of a publish that a reset has stopped: its slot is abandoned when the answer names it (R215). -/
  | abandon (rid part : Nat)
  /-- A completion on its way to the holder of its ring's line (R72, R75). -/
  | compl (op : Nat)
  /-- Nobody waits. -/
  | fire
deriving DecidableEq, Repr

/-- What a cavern access does (R206, R207, R219). -/
inductive CvnDo where
  | rd (lines : Nat) (coded pre : Bool)
  | wr (data : Bytes) (poison : Bool)
  | add (tgtBf16 addBf16 : Bool) (data : Bytes) (poison : Bool)
  /-- The old plaintext of a lost data unit is being rebuilt, and the change then goes to its parity line (R219). -/
  | oldThenWr (data : Bytes) (poison : Bool)
  | oldThenAdd (tgtBf16 addBf16 : Bool) (data : Bytes) (poison : Bool)
  /-- Messages with no other route. -/
  | msg
deriving DecidableEq, Repr

/-- A cavern access in progress: the lines from region offset `off` in version slot `slot`, the request tags it waits for, and what has arrived. -/
structure CvnAcc where
  id : Nat
  who : CvnFor
  rid : Nat
  slot : Nat := 0
  off : Nat := 0
  act : Nat := 0
  what : CvnDo := .msg
  waits : List Nat := []
  data : Bytes := []
  /-- Bit i: line i is poisoned. -/
  poison : Nat := 0
  status : Nat := 0
  /-- The module that refused it with DESC_MISMATCH (R202). -/
  refuser : Nat := 0
  lost : Bool := false
  degraded : Bool := false
  /-- What it reads cannot be had from any redundancy that is left (R221). -/
  gone : Bool := false
  /-- The member index and row it reads, for a read of one unit; `off` is then the offset in the unit (R220). -/
  cell : Option (Nat × Nat) := none
  mapent : Nat := 0
  rslot : Nat := 0
  version : Nat := 0
deriving DecidableEq, Repr

/-- A request sent to another module, or waiting for a session with it, and not answered yet (R228, R238). -/
structure Remote where
  rtag : Nat
  peer : Nat
  acc : Nat
  msg : ColdonMsg
  issuedAt : Nat
  sent : Bool
deriving DecidableEq, Repr

/-- A READ of another module that waits at this holder for a recovery (R287). -/
structure HeldRead where
  id : Nat
  peer : Nat
  rtag : Nat
  ma : Nat
  lines : Nat
  since : Nat
  /-- A read of one block as stored. -/
  coded : Bool := false
  /-- The activity it is charged to. -/
  act : Nat := 0x80
deriving DecidableEq, Repr

/-- Cavern state and the CVN_ counters (Table 9-10). -/
structure Cavern where
  regions : Tab Region := []
  redns : List Redn := []
  accs : List CvnAcc := []
  nextAcc : Nat := 0
  remote : List Remote := []
  heldReads : List HeldRead := []
  nextTag : Nat := 0
  remoteReads : Nat := 0
  remoteWrites : Nat := 0
  served : Nat := 0
  degradedReads : Nat := 0
  conflicts : Nat := 0
  rebuildUnits : Nat := 0
  lostUnits : Nat := 0
  tableImports : Nat := 0
  /-- REDUCEs that partition resets of this module have ended, as (group, RSEQ), and the contributions to them that arrived afterwards and were
  discarded (R78). -/
  abortedRedns : List (Nat × Nat) := []
  lateContribs : Nat := 0
  /-- Reads of coded blocks whose answer is in and whose table has not been imported yet (R123). -/
  landing : List CvnAcc := []
deriving DecidableEq, Repr, Inhabited

/-! ### What the module sends -/

/-- Why a message of vector 0 is sent (R75 and the chapters that name a notice). -/
inductive Notice where
  | eventRecord
  | ringStopped
  | partReset
  | reloadStart
  | reloadEnd
  | derated
  | wqCrossed
deriving DecidableEq, Repr

/-- A response of the mailbox, of the FM API, of DOE, of SPDM or of PLDM: its code and the values it carries. -/
structure Reply where
  code : Nat
  vals : List Nat := []
  data : Bytes := []
deriving DecidableEq, Repr

/-- A Coldon frame as it goes out (Table 10-2): MAC addresses, VLAN ID and PCP of its tag, traffic class, flow label, hop limit, addresses and ports, UDP checksum,
the 40 header bytes, the payload (ciphertext with ENC = 1), and the GCM tag. -/
structure Wire where
  dstMac : Nat
  srcMac : Nat
  vlan : Option (Nat × Nat)
  tclass : Nat
  flow : Nat
  hops : Nat
  srcIp : Nat
  dstIp : Nat
  srcPort : Nat
  dstPort : Nat
  checksum : Nat
  header : Bytes
  payload : Bytes
  tag : Bytes
deriving DecidableEq, Repr

/-- One thing the module sends (DESIGN CHOICE, log 87). -/
inductive Output where
  /-- Data response with its MetaField, poison bit and DevLoad (R44, R51, R54). -/
  | memData (port ld tag : Nat) (data : Bytes) (poison : Bool) (metaField : Meta) (devLoad : Nat)
  /-- Cmp with its MetaField and DevLoad (R44). -/
  | memCmp (port ld tag : Nat) (metaField : Meta) (devLoad : Nat)
  /-- BISnpInv or BISnpData (R49). -/
  | biSnp (port ld line : Nat) (inv : Bool)
  | biConflictAck (port ld line : Nat)
  /-- MSI-X message of a vector of an LD (R75). -/
  | msix (ldIdx vector : Nat) (why : Option Notice)
  | aer (port : Nat)
  /-- An alert of an LD (Table 2-7): a General Media event when `media`, else a Memory Module event. -/
  | alert (ldIdx : Nat) (media : Bool)
  | doe (port ld : Nat) (r : Reply)
  | doeError (port ld : Nat)
  | spdm (ep : SpdmEp) (r : Reply)
  /-- Answers of the FM API and of a mailbox: the status of Table 0-4 that the command ends with (R14), and its CXL return code and values. -/
  | fmApi (p : FmPath) (status : Nat) (r : Reply)
  | mailbox (port ld opcode status : Nat) (r : Reply)
  /-- Value of a register read. -/
  | regValue (rq : Requester) (addr size value : Nat)
  /-- Response to an Eofaner command: COMMAND, TAG, STATUS, CAUSE and payload (R343). -/
  | mgmt (path : MgmtPath) (command tag status cause : Nat) (r : Reply)
  /-- PlatformEventMessage: receiver, sensor, new value, and event data (R333, R345). -/
  | pldmEvent (eid sensor value : Nat) (data : List Nat)
  | pldm (r : Reply)
  /-- Coldon frame: port, destination address, session, SEQ (if sequenced), TXC, RETX, ACK, CREDIT, ECE, message, and the frame that carries them. -/
  | frame (port dst session : Nat) (seq : Option Nat) (txc : Nat) (retx : Bool) (ack credit : Nat) (ece : Bool) (m : ColdonMsg) (w : Wire)
  | neighborAdvert (port : Nat)
  | echoReply (port : Nat) (data : Bytes)
  | pfc (port : Nat) (xoff : Bool)
  /-- A reader ends a closed packet as Table 18-2 states. -/
  | packetClosed (q : Nat)
deriving DecidableEq, Repr

/-! ### Coldon (chapter 10) -/

/-- A peer port (Tables 10-8, 10-9). -/
structure CPort where
  up : Bool := false
  lock : Bool := false
  prsntHigh : Bool := true
  paused : Bool := false
  /-- XOFF has been sent and not yet XON (R224). -/
  xoff : Bool := false
  /-- Frames that wait while the port is paused, first in first out (R224). -/
  waiting : List Output := []
  /-- Solicitations and echoes answered in the running second, and the second (R224). -/
  answered : Nat := 0
  answeredSec : Nat := 0
  tx : Nat := 0
  rx : Nat := 0
  retx : Nat := 0
  rxOther : Nat := 0
  hchkFail : Nat := 0
  unknown : Nat := 0
  gcmFail : Nat := 0
  replay : Nat := 0
  dup : Nat := 0
  noBuffer : Nat := 0
  ece : Nat := 0
  peerLost : Nat := 0
  macErr : Nat := 0
  oversize : Nat := 0
deriving DecidableEq, Repr, Inhabited

/-- A sequenced message not acknowledged yet (R235): PEER count at its last transmission, current timer in ns, expiries in a row, later messages selectively acknowledged.
`act`: the activity that its PEER_BYTES are charged to, repeats included (Table 11-2). -/
structure OutMsg where
  seq : Nat
  act : Nat := 0x80
  msg : ColdonMsg
  sentAt : Int
  rtoNs : Nat
  expiries : Nat
  sackedLater : Nat
  sacked : Bool
deriving DecidableEq, Repr

/-- A session with a peer (R230 to R238). -/
structure Sess where
  peer : Nat
  lsid : Nat
  psid : Nat
  /-- Key (bytes 0 to 31) and salt (32 to 35) of each direction (R233). -/
  txKey : Bytes
  rxKey : Bytes
  port : Nat
  /-- Address the session sends to (R237). -/
  dst : Nat
  txc : Nat := 0
  rxHigh : Option Nat := none
  rxSeen : NSet := []
  sndNxt : Nat := 0
  peerAck : Nat := 0
  peerCredit : Nat := 0
  cwnd : Nat := 256
  /-- Messages sent since CWND was last halved; none before the first time (R237). -/
  sinceCut : Option Nat := none
  ackedRun : Nat := 0
  rcvNxt : Nat := 0
  reorder : Tab ColdonMsg := []
  unacked : Nat := 0
  ackSince : Option Int := none
  lastRx : Int := 0
  lastPing : Int := 0
  echoEce : Bool := false
  outst : List OutMsg := []
  /-- Messages behind the window, each with the activity it is charged to. -/
  sendq : List (Nat × ColdonMsg) := []
deriving DecidableEq, Repr

/-- A half-open session (R231): the initiator waits for HELLO_RSP, the responder for FINISH. -/
structure HalfOpen where
  peer : Nat
  lsid : Nat
  psid : Nat
  /-- Keys of each direction, once they are derived (R233). -/
  txKey : Bytes := []
  rxKey : Bytes := []
  /-- The initiator's ephemeral private key, erased once the keys are derived (R233). -/
  eph : Nat := 0
  responder : Bool
  since : Nat
  port : Nat
  dst : Nat
  /-- The HELLO the initiator sent, which it repeats and which HELLO_RSP signs (R230). -/
  hello : Option HelloBody
deriving DecidableEq, Repr

/-- Coldon state. -/
structure Coldon where
  ports : Tab CPort := []
  sessions : List Sess := []
  half : List HalfOpen := []
  nakAt : Tab Nat := []
  /-- Peers declared unreachable and not reached since. -/
  unreachable : List Nat := []
  /-- Peers whose last session ended with a module reset: CLOSE with REASON 1 (R219). -/
  resetPeers : List Nat := []
deriving DecidableEq, Repr, Inhabited

/-! ### Budgets (chapter 11) -/

/-- A throttle of an activity at a channel pair (R253). -/
structure Throttle where
  pair : Nat
  act : Nat
  left : Nat
deriving DecidableEq, Repr

/-- What the running window of an arbitration point goes by: s, the in-service capacity of the point and of its class, RT_SHORT, and the slots that an issue-rate
limit leaves (R245, R251, R252, R254). -/
structure Basis where
  scale : Nat := 65536
  cap : Nat
  total : Nat
  short : Bool := false
  slots : Nat
deriving DecidableEq, Repr

/-- Budget state. Keys are `budKey cls point act`, of a point `pointKey cls point`; counters of Table 11-5 are by `cls × 65,536 + activity`. -/
structure Budget where
  use : Tab Nat := []
  /-- By point: what its running window goes by, when it is not every unit in service and no limit. -/
  basis : Tab Basis := []
  /-- By point: the activity served last, plus one (R246). -/
  lastServed : Tab Nat := []
  /-- By point: the first cycle of its counter that no window boundary has covered yet; `since` gives it where nothing is listed: the counters when the budgets began. -/
  winFrom : Tab Nat := []
  since : Clocks := {}
  /-- What the operation under way was charged at throttled pairs before it runs (R253). -/
  credit : Tab Nat := []
  last : Tab Nat := []
  total : Tab Nat := []
  overWin : Tab Nat := []
  unmet : Tab Nat := []
  throttledWin : Tab Nat := []
  /-- Activities whose BUD_UNMET rose, or that were throttled, since each LD's DevLoad was last formed (by LD number). -/
  rose : List Nat := []
  scale : Tab Nat := []
  rtShort : NSet := []
  derates : Tab Nat := []
  throttles : List Throttle := []
deriving DecidableEq, Repr, Inhabited

/-! ### Memory controllers (chapter 12) -/

/-- One entry of a row tracker (R266). -/
structure TrkEnt where
  row : Nat
  count : Nat
  cand : Nat
  vote : Nat
deriving DecidableEq, Repr

/-- A controller: the pair of deep-tier controllers of a channel pair, or a near-tier controller. Index k is a rank, a subchannel or a pseudo-channel. -/
structure DCtl where
  panicCap : Nat := 64
  rdOffender : Nat := 16
  rdMit : Nat := 384
  panicLow : Nat := 4
  retrainLog2 : Nat := 8
  opCur : Nat := 0
  opTarget : Nat := 0
  changing : Bool := false
  paused : Option Nat := none
  /-- Deep: ranks out of service. Near: pseudo-channels retired. -/
  out : NSet := []
  owed : Tab Nat := []
  doubled : NSet := []
  /-- Normal readings still needed of a logical rank that has reported the doubled rate, by 8 × k + logical rank (R263). -/
  normalReads : Tab Nat := []
  /-- A batch that no request delays is running for k (R262, R263). -/
  forced : NSet := []
  running : NSet := []
  xlateMa : Nat := 0
  trackers : Tab (List TrkEnt) := []
  credits : Tab Nat := []
  /-- Steps left of the running round, by subchannel or pseudo-channel. -/
  steps : Tab Nat := []
  deferSince : Tab (Option Nat) := []
  lastStepAt : Tab (Option Nat) := []
  lastTemp : Tab Int := []
  /-- By master: bytes granted at PANIC in the running window (R269). -/
  panicUse : Tab Nat := []
  /-- DCTL_XLATE_MA has been written (Table 12-9). -/
  xlateDone : Bool := false
  /-- First cycle of the counter that REFRESH_DUE, RETRAIN_ROUND or TRACKER_CLEAR has not covered yet (R261, R265, R266); when the running refresh began. -/
  dueFrom : Tab Nat := []
  roundFrom : Tab Nat := []
  clearFrom : Nat := 1
  runAt : Tab Nat := []
  /-- Of the owed refreshes of k, those counted as postponed (R262). -/
  late : Tab Nat := []
  /-- When a logical rank was last read, by 8 × k + logical rank (R263). -/
  mr4At : Tab (Option Nat) := []
  cntPostponed : Nat := 0
  cntForced : Nat := 0
  cntBatch : Nat := 0
  cntTargeted : Nat := 0
  cntOffenders : Nat := 0
  cntPanicBytes : Nat := 0
  cntSteps : Nat := 0
  cntDefer : Nat := 0
  cntFreq : Nat := 0
  cntPauseNs : Nat := 0
deriving DecidableEq, Repr, Inhabited

/-- All controllers: deep by channel pair, near by stack. -/
structure Dram where
  deep : Tab DCtl := []
  near : Tab DCtl := []
deriving DecidableEq, Repr, Inhabited

/-! ### RAS (chapter 13) -/

/-- A deep-tier rank (Table 13-8). -/
structure Rank where
  ce : Nat := 0
  mark1 : Nat := 15
  mark2 : Nat := 15
  st : Nat := 0
  /-- Distinct lines corrected on each device in this scrub pass (R277), as (device, line). -/
  hits : List (Nat × Nat) := []
  /-- Line whose read waits for the locate step (R277). -/
  locating : Option Nat := none
deriving DecidableEq, Repr, Inhabited

/-- A recovery (R286). -/
structure Recov where
  block : Nat
  since : Nat
  /-- The error was found in a copy above the deep tier. -/
  above : Bool
  /-- Check 2 of Table 5-8 failed. -/
  stale : Bool
  /-- Poison marks the block held before the recovery poisoned its lines. -/
  before : NSet
deriving DecidableEq, Repr

/-- RAS state (DEDUCED, log 108). -/
structure Ras where
  poisonOnly : Bool := false
  markThresh : Nat := 8
  holdLimit : Nat := 50
  scrubNearH : Nat := 6
  scrubDeepH : Nat := 24
  ranks : Tab Rank := []
  failed : List UnitId := []
  d2dDown : List D2dLink := []
  d2dFails : List (D2dLink × Nat) := []
  hopFails : List (UnitId × Nat) := []
  retireq : List Nat := []
  /-- Ranks of subchannels that retraining has reported as failed in both ranks (R284). -/
  subFailed : NSet := []
  /-- Rank whose blocks are being moved, and the number of the next block of it. -/
  migrating : Option (Nat × Nat) := none
  /-- Retirements that have taken spare room. -/
  spareUsed : Nat := 0
  spareExh : Bool := false
  remap : Tab Nat := []
  scrubDeep : Tab Nat := []
  scrubNear : Tab Nat := []
  recov : List Recov := []
  /-- Blocks whose last recovery failed, and whether check 2 of Table 5-8 had failed (R128). -/
  gone : Tab Bool := []
  /-- Corrected errors since the last entry, and the MGMT second of that entry, per place (R289). -/
  cePend : Tab Nat := []
  ceSec : Tab Nat := []
  ceDeep : Nat := 0
  ueDeep : Nat := 0
  ceNear : Nat := 0
  ueNear : Nat := 0
  poisoned : Nat := 0
  recovered : Nat := 0
  unrecovered : Nat := 0
  holdExpired : Nat := 0
  migrated : Nat := 0
  hopReplays : Nat := 0
  scrubPassesNear : Nat := 0
  scrubPassesDeep : Nat := 0
deriving DecidableEq, Repr, Inhabited

/-! ### Power and thermal (chapter 14) -/

/-- Power and thermal state. Caps in W; powers in mW; f in units of 1/16,384 (DESIGN CHOICE, log 5) (DESIGN CHOICE, log 70). -/
structure Power where
  peak : Nat := 0
  sustained : Nat := 0
  dieA : Nat := 0
  dieB : Nat := 0
  hub : Nat := 0
  demand : Tab Nat := []
  below : Tab Nat := []
  sustEng : Bool := false
  supplyLow : Bool := false
  factor : Nat := 0x4000
  calFault : Bool := false
  measBad : Bool := false
  goodTicks : Nat := 0
  codeRun : Nat := 0
  codeFe : Nat := 0
  agree : Nat := 0
  disagreeRun : Nat := 0
  okRun : Nat := 0
  /-- The last interval agreed (R293). -/
  agreed : Bool := false
  /-- MGMT count from which f may go to NVM again (R293). -/
  nvmAt : Nat := 3600 * 500000000
  sumM : Nat := 0
  sumE : Nat := 0
  ticks : Nat := 0
  /-- First MGMT cycle that no tick has covered yet (R290). -/
  tickFrom : Nat := 0
  lastM : Nat := 0
  lastP : Nat := 0
  lastPd : Nat × Nat × Nat := (0, 0, 0)
  hist : List Nat := []
  reasons : NSet := []
  reasonUs : Tab Nat := []
  reasonSec : Tab Nat := []
  unreachable : Bool := false
  levelA : Nat := 0
  levelB : Nat := 0
  levelHub : Nat := 0
  /-- Levels held by hardware during a restart of the management processor (R341). -/
  held : Bool := false
  deferred : Nat := 0
  deferLimit : Nat := 0
  sensors : Tab Int := []
  sensorsRead : Bool := false
  rails : List (Nat × Nat) := []
  maxTemp : Int := 0
  tripped : Bool := false
  tripSensor : Nat := 0
  volts : Nat := 0
deriving DecidableEq, Repr, Inhabited

/-! ### Security (chapter 15) -/

/-- Fuses, keys and debug state. -/
structure Sec where
  claimed : Bool := false
  bank : Nat := 0
  hashes : Tab Bytes := []
  cosign : Bool := false
  fwSvn : Nat := 0
  pbSvn : Nat := 0
  dbgData : Bool := false
  dbgMgmt : Bool := false
  dbgUart : Bool := false
  nonce : Option Bytes := none
  /-- The key stores hold keys: false before step 11 of Table 16-15 and once they are zeroized (R326). -/
  keysLive : Bool := false
  /-- The 64-byte XTS keys: of each partition, of the metadata area and of the cavern share (R320). -/
  partKey : Tab Bytes := []
  keyGen : Tab Nat := []
  metaKey : Bytes := []
  cavKey : Bytes := []
  mctp : List SpdmSess := []
  spdmNext : Nat := 1
deriving DecidableEq, Repr, Inhabited

/-! ### Management (chapters 16, 17) -/

/-- States of a firmware slot (R352). -/
inductive FwSt where
  | empty
  | trial
  | active
  | invalid
deriving DecidableEq, Repr, Inhabited

/-- A callboard entry (Table 17-3). A RAS entry holds its record (Table 13-5) in `unit`, `count` and `value` as the 16 bytes `record`. -/
structure LogEnt where
  seq : Nat
  stamp : Nat
  code : Nat
  cls : Nat
  part : Nat
  sev : Nat
  unit : Nat
  count : Nat
  value : Nat
  record : Bytes
deriving DecidableEq, Repr

/-- A NOR device (Table 17-5). -/
structure Nor where
  fw : Bytes := []
  fwSt : FwSt := .empty
  tries : Nat := 0
  svn : Nat := 0
  commitSeq : Nat := 0
  mirror : List LogEnt := []
  f : Nat := 0x4000
  trips : List (Nat × Int) := []
  pb : Bytes := []
deriving DecidableEq, Repr, Inhabited

/-- Where the module stands (R334, R337, R345, R355). -/
inductive Phase where
  | off
  | booting
  | up
  | safe
  | reloading
  | tripped
  | held
  | recovery
deriving DecidableEq, Repr, Inhabited

/-- Management state. -/
structure Mgmt where
  phase : Phase := .off
  safeReason : Nat := 0
  standby : Bool := false
  dataRails : Bool := false
  slot : Nat := 0
  trial : Bool := false
  recovering : Bool := false
  /-- The start that runs leaves safe mode by a reload (R337). -/
  fromSafe : Bool := false
  /-- Slots that failed before the callboard was restored, with their SVNs: recorded as FW_FALLBACK at step 3 (R352). -/
  fallbacks : List (Nat × Nat) := []
  /-- DIGESTs of the regions of which this module has been a member in service; kept in NOR (R209, R220; DESIGN CHOICE, log 94). -/
  joined : List Nat := []
  pb : PromptBook := {}
  pbImage : Bytes := []
  rwlLocked : Bool := false
  /-- Slot, new image, new prompt book, whether the layout and the share change. -/
  reload : Option (Nat × Bytes × PromptBook × Bool × Bool) := none
  upAt : Option Nat := none
  resetCause : Nat := 0
  nor : Tab Nor := []
  log : List LogEnt := []
  logNext : Nat := 0
  logOldest : Nat := 0
  /-- LOG_OLDEST as restored at the start: what a bookmark holds that nobody has moved. -/
  logBase : Nat := 0
  bmk : Tab Nat := []
  /-- SEQ of the next entry each mirror takes (R349). -/
  mirrorNext : Nat × Nat := (0, 0)
  timeOffset : Int := 0
  timeKnown : Bool := false
  /-- Events counted since the last entry and the MGMT second of that entry, for entries written at most once per second. -/
  rateCnt : Tab Nat := []
  rateSec : Tab Nat := []
  eventEid : Option Nat := none
  xfer : Option (Nat × Nat) := none
  wdFires : Nat := 0
  modAddr : Nat := 0
  resetLow : Bool := false
  /-- Levels of MGT_GPIO3 to MGT_GPIO0 (R376). -/
  gpio : Nat := 0
deriving DecidableEq, Repr, Inhabited

/-! ### Wings queues (chapter 18) -/

/-- The tag of a read word: the packet's first and last word, a close's word, and the number of valid bytes minus 1, which counts on the last word only (R357). -/
structure RWord where
  sop : Bool
  eop : Bool
  trunc : Bool := false
  bytes : Nat := 0
deriving DecidableEq, Repr, Inhabited

/-- A wings queue (Tables 18-1, 18-7, 18-8). -/
structure WQueue where
  /-- The read words visible, oldest first. -/
  words : List RWord := []
  /-- The reader is inside a packet: the packet at the head has been begun (R359). -/
  reading : Bool := false
  mark : Nat := 0
  crossed : Bool := false
  crossCount : Nat := 0
  orphan : Bool := false
  trunc : Nat := 0
  orphanBytes : Nat := 0
  orphanWords : Nat := 0
  /-- Bytes in the read word being assembled. -/
  asm : Nat := 0
  /-- Write side: number of the packet being written, and whether one is. -/
  wrPkt : Nat := 0
  inPkt : Bool := false
  /-- Words of the unfinished packet that have become visible, and when the last of them did (R360). -/
  pktWords : Nat := 0
  stallSince : Nat := 0
  /-- Packets closed whose number has not reached the write side (R361), and the ones it discards. -/
  closed : List Nat := []
  discard : Option Nat := none
  /-- What a return queue's master reads once more after a close (Table 18-2). -/
  reissued : List ClosedUse := []
  /-- Write words taken and the hold of TST_Q_CTRL in force (Table 18-3): write words held back. -/
  holding : Bool := false
  holdSince : Nat := 0
  heldBursts : List QBurst := []
deriving DecidableEq, Repr, Inhabited

/-- LEVEL_NOW: the read words visible (Table 18-7). -/
def WQueue.level (w : WQueue) : Nat := w.words.length

/-- Wings queues and perturbation controls. -/
structure Wings where
  queues : Tab WQueue := []
  tstQ : Tab Nat := []
  tstSync : Nat := 0
  tstRef : Nat := 0
  tstReplay : Nat := 0
deriving DecidableEq, Repr, Inhabited

/-! ### The whole state -/

/-- The module. -/
structure State where
  /-- Commands that wait, first in, first out. -/
  pending : List Instr := []
  /-- Everything the module has sent, newest first. -/
  outs : List Output := []
  /-- Free values drawn so far. -/
  free : Nat := 0
  /-- Ordering variant: 1 DMN-1-15T, 2 DMN-1-7T (Table 0-1). -/
  variant : Nat := 1
  clk : Clocks := {}
  host : HostSide := {}
  parts : Tab Part := []
  disp : Disp := {}
  mem : MemSys := {}
  gol : Golas := {}
  cav : Cavern := {}
  cld : Coldon := {}
  bud : Budget := {}
  dram : Dram := {}
  ras : Ras := {}
  pwr : Power := {}
  sec : Sec := {}
  mgmt : Mgmt := {}
  wq : Wings := {}
deriving DecidableEq, Repr, Inhabited

/-- Faults. No command of the table stops the machine: the spec answers every error with a status, a poisoned response, a callboard entry or a reset. -/
inductive Fault where
  /-- Raised by no command. Safe. -/
  | none
deriving DecidableEq, Repr

/-- Refusals. -/
inductive Refusal where
  /-- A command whose row has no meaning in the model yet; raised by its arm of `exec` alone. Safe. -/
  | notModelled (mnemonic : String)
deriving DecidableEq, Repr

/-- The firmware image that slot A holds when the module leaves the factory (R379), as bytes of the model: the spec gives its state, not its bytes (DESIGN CHOICE, log 6). -/
def factoryFw : Bytes := [1]

/-- The module before step 1 of Table 16-15, as it leaves the factory (R379): every register at the Reset column of its table, slot A ACTIVE, slot B EMPTY, no prompt book, fuses UNCLAIMED (DESIGN CHOICE, log 38). -/
def State.reset : State :=
  { mgmt := { nor := [(0, { fw := factoryFw, fwSt := .active, commitSeq := 1 })] } }

end Sys2Proof.Machine
end

