-- ==== Sys2Proof/Machine/Flags.lean ====
section
/-! DEFINITION. Status codes, detail codes, completions and callboard events: the module's flags and the records that carry them (R14, R73, R74, R347, R348). -/

namespace Sys2Proof.Machine

/-! ### Status codes (Table 0-4) -/

def stOk : Nat := 0x00
def stAborted : Nat := 0x01
def stConflict : Nat := 0x02
def stPoisoned : Nat := 0x03
def stBadDescriptor : Nat := 0x04
def stCheckFail : Nat := 0x05
def stOutOfBounds : Nat := 0x06
def stNoPermission : Nat := 0x07
def stTableStale : Nat := 0x08
def stCapDeferred : Nat := 0x09
def stPeerUnreachable : Nat := 0x0A
def stTruncated : Nat := 0x0B

/-- A status other than OK where the spec states only that a command is refused, or only its cause, by the kind of the refusal: one of Table 0-4
(DESIGN CHOICE, log 28). -/
def openStatus (k : Nat) : Nat := 1 + (Config.openStatus k).toNat % 11

/-! ### Detail codes common to every operation (Table 3-19) -/

def dtNone : Nat := 0
def dtDepFailed : Nat := 1
def dtPartReset : Nat := 2
def dtGroupAbort : Nat := 3
def dtSeqMismatch : Nat := 4
def dtBadOpcode : Nat := 5
def dtReservedSet : Nat := 6
def dtBadDep : Nat := 7
def dtDescCrc : Nat := 8
def dtFetchPoison : Nat := 9
def dtBadRange : Nat := 10
def dtBadOffset : Nat := 11

/-- The 16 bytes of a completion (Table 3-18); the CRC-16 covers bytes 0 to 13 (R73). -/
def completionBytes (tag seq status detail : Nat) (degraded late phase : Bool) (result stall : Nat) : Bytes :=
  let b := leBytes 4 tag ++ leBytes 2 seq ++ leBytes 1 status ++
    leBytes 1 (fld detail 5 3 + fld (b2n degraded) 1 2 + fld (b2n late) 1 1 + b2n phase) ++
    leBytes 4 result ++ leBytes 2 stall
  b ++ leBytes 2 (crc16 b)

/-- PHASE of the completion in the slot of free-running count `n` of a ring with 2^`log2` slots (R73). -/
def phaseBit (log2 n : Nat) : Bool := !bit n log2

/-! ### Causes of an Eofaner response (R343) -/

def causeNone : Nat := 0
def causeBusy : Nat := 1
def causeState : Nat := 2
def causeRange : Nat := 3
def causeSession : Nat := 4

/-! ### Mailbox and FM API return codes, as CXL 3.1 numbers them (the spec names them; PRESUMED, log 22) -/

def mbSuccess : Nat := 0x0
def mbBackground : Nat := 0x1
def mbInvalidInput : Nat := 0x2
def mbUnsupported : Nat := 0x3
def mbBusy : Nat := 0x6
def mbMediaDisabled : Nat := 0x7

/-! ### Callboard events (Table 17-4, R348) -/

/-- The events of the callboard. `ras` carries the EVENT code of Table 13-5 and the record's severity. -/
inductive Ev where
  | moduleUp | moduleReset | safeMode | reload | pbFallback | pbInvalid | badAccess | timeSet | mgmtRestart
  | flexbusMismatch | portReset | ldReset | ideInsecure | decoderUnmapped | sealedWrite | aperturePartial | biDiscard
  | partReset | orphanLines | ringReset | ringStopped | partRefused
  | ras (code sev : Nat)
  | reasonStart | reasonEnd | thermalTrip | supplyTrip | capRefused
  | budgetDerated | throttle
  | cvnDupId | cvnDescMismatch | cvnNoSlot | cvnNoMirror | cvnMemberLost | cvnWriteLost | cvnPromoted
  | sessionUp | sessionDown
  | wqOrphan | wqTruncated | wqCrossed
  | ownerClaimed | ownerTransferred | cosignSet | debugUnlocked | debugLocked | fwWritten | fwCommitted
  | fwFallback | fwRefused | recoveryUsed
deriving DecidableEq, Repr

/-- CLASS and CODE of an event: codes count from 0x01 in the order of Table 17-4. -/
def Ev.clsCode : Ev → Nat × Nat
  | .moduleUp => (1, 1) | .moduleReset => (1, 2) | .safeMode => (1, 3) | .reload => (1, 4)
  | .pbFallback => (1, 5) | .pbInvalid => (1, 6) | .badAccess => (1, 7) | .timeSet => (1, 8)
  | .mgmtRestart => (1, 9)
  | .flexbusMismatch => (2, 1) | .portReset => (2, 2) | .ldReset => (2, 3) | .ideInsecure => (2, 4)
  | .decoderUnmapped => (2, 5) | .sealedWrite => (2, 6) | .aperturePartial => (2, 7) | .biDiscard => (2, 8)
  | .partReset => (3, 1) | .orphanLines => (3, 2) | .ringReset => (3, 3) | .ringStopped => (3, 4)
  | .partRefused => (3, 5)
  | .ras c _ => (4, c)
  | .reasonStart => (5, 1) | .reasonEnd => (5, 2) | .thermalTrip => (5, 3) | .supplyTrip => (5, 4)
  | .capRefused => (5, 5)
  | .budgetDerated => (6, 1) | .throttle => (6, 2)
  | .cvnDupId => (7, 1) | .cvnDescMismatch => (7, 2) | .cvnNoSlot => (7, 3) | .cvnNoMirror => (7, 4)
  | .cvnMemberLost => (7, 5) | .cvnWriteLost => (7, 6) | .cvnPromoted => (7, 7) | .sessionUp => (7, 8)
  | .sessionDown => (7, 9)
  | .wqOrphan => (8, 1) | .wqTruncated => (8, 2) | .wqCrossed => (8, 3)
  | .ownerClaimed => (9, 1) | .ownerTransferred => (9, 2) | .cosignSet => (9, 3) | .debugUnlocked => (9, 4)
  | .debugLocked => (9, 5) | .fwWritten => (9, 6) | .fwCommitted => (9, 7) | .fwFallback => (9, 8)
  | .fwRefused => (9, 9) | .recoveryUsed => (9, 10)

/-- SEVERITY of an event with its COUNT and VALUE (R348). PORT_RESET is a warning for causes 2 and 3. -/
def Ev.severity (e : Ev) (count value : Nat) : Nat :=
  match e with
  | .ras _ sev => sev
  | .safeMode | .thermalTrip | .supplyTrip => 3
  | .orphanLines => if count = 0 then 0 else 2
  | .cvnWriteLost | .cvnMemberLost | .fwFallback => 2
  | .pbFallback | .pbInvalid | .badAccess | .mgmtRestart => 1
  | .flexbusMismatch | .ideInsecure | .decoderUnmapped | .sealedWrite | .aperturePartial | .biDiscard => 1
  | .portReset => if value = 2 ∨ value = 3 then 1 else 0
  | .ringStopped | .partRefused => 1
  | .reasonStart | .capRefused => 1
  | .budgetDerated | .throttle => 1
  | .cvnDupId | .cvnDescMismatch | .cvnNoSlot | .cvnNoMirror | .sessionDown => 1
  | .wqOrphan | .wqTruncated => 1
  | .debugUnlocked | .fwRefused | .recoveryUsed => 1
  | .moduleUp | .moduleReset | .reload | .timeSet | .ldReset | .partReset | .ringReset | .reasonEnd
  | .cvnPromoted | .sessionUp | .wqCrossed | .ownerClaimed | .ownerTransferred | .cosignSet | .debugLocked
  | .fwWritten | .fwCommitted => 0

end Sys2Proof.Machine
end

