-- ==== Sys2Proof/Machine/Ops.lean ====
section
/-! DEFINITION. The shared operations over State: tables, outputs, free values, the callboard, interrupts, and the prompt book's assignments. -/

namespace Sys2Proof.Machine

/-- What a command answers. -/
abbrev Out := Host.Outcome State Fault Refusal

/-! ### Free values and outputs -/

/-- Draws the next free value (DESIGN CHOICE, log 7). -/
def State.draw (s : State) : BitVec 64 × State :=
  (Config.freeWord s.free, { s with free := s.free + 1 })

/-- Draws `n` bytes, each from a free value of its own (DESIGN CHOICE, log 7) (DESIGN CHOICE, log 32). -/
def State.drawBytes (s : State) (n : Nat) : Bytes × State :=
  ((List.range n).map (fun i => (Config.freeWord (s.free + i)).setWidth 8), { s with free := s.free + n })

/-- Draws an XTS key: a data key and a tweak key, which differ (R320). What the generator does with halves that are equal is not stated: one is inverted (DESIGN CHOICE,
DESIGN CHOICE, log 8). -/
def State.drawXtsKey (s : State) : Bytes × State :=
  let b := s.drawBytes 64
  let d := slice b.1 0 32
  let t := slice b.1 32 32
  (d ++ (if d = t then t.map (fun x => ~~~x) else t), b.2)

/-- Sends something out of the module (DESIGN CHOICE, log 12). -/
def State.emit (s : State) (o : Output) : State := { s with outs := o :: s.outs }

/-! ### Entries of the tables -/

def State.port (s : State) (p : Nat) : Port := tabGet {} s.host.ports p
def State.modPort (s : State) (p : Nat) (f : Port → Port) : State :=
  { s with host := { s.host with ports := tabMod {} s.host.ports p f } }

/-- The number of an LD: 16 × port + LD-ID; the FM-owned LD (LD-ID 0xFFFF) of port p is 128 + p. -/
def ldIdx (port ld : Nat) : Nat := if ld < 16 then 16 * port + ld else 128 + port

def State.ld (s : State) (i : Nat) : Ld := tabGet {} s.host.lds i
def State.modLd (s : State) (i : Nat) (f : Ld → Ld) : State :=
  { s with host := { s.host with lds := tabMod {} s.host.lds i f } }

def State.part (s : State) (p : Nat) : Part := tabGet {} s.parts p
def State.modPart (s : State) (p : Nat) (f : Part → Part) : State :=
  { s with parts := tabMod {} s.parts p f }

def State.ring (s : State) (r : Nat) : Ring := tabGet {} s.disp.rings r
def State.modRing (s : State) (r : Nat) (f : Ring → Ring) : State :=
  { s with disp := { s.disp with rings := tabMod {} s.disp.rings r f } }

def State.slot (s : State) (n : Nat) : GSlot := tabGet {} s.gol.slots n
def State.modSlot (s : State) (n : Nat) (f : GSlot → GSlot) : State :=
  { s with gol := { s.gol with slots := tabMod {} s.gol.slots n f } }

def State.region (s : State) (rid : Nat) : Region := tabGet {} s.cav.regions rid
def State.modRegion (s : State) (rid : Nat) (f : Region → Region) : State :=
  { s with cav := { s.cav with regions := tabMod {} s.cav.regions rid f } }

def State.cport (s : State) (p : Nat) : CPort := tabGet {} s.cld.ports p
def State.modCport (s : State) (p : Nat) (f : CPort → CPort) : State :=
  { s with cld := { s.cld with ports := tabMod {} s.cld.ports p f } }

def State.rank (s : State) (k : Nat) : Rank := tabGet {} s.ras.ranks k
def State.modRank (s : State) (k : Nat) (f : Rank → Rank) : State :=
  { s with ras := { s.ras with ranks := tabMod {} s.ras.ranks k f } }

/-- A controller's state. DCTL_CFG and NCTL_CFG hold their reset values before the prompt book is applied. -/
def State.ctl (s : State) : Ctl → DCtl
  | .deep p => tabGet {} s.dram.deep p
  | .near n => tabGet {} s.dram.near n

def State.modCtl (s : State) (c : Ctl) (f : DCtl → DCtl) : State :=
  match c with
  | .deep p => { s with dram := { s.dram with deep := tabMod {} s.dram.deep p f } }
  | .near n => { s with dram := { s.dram with near := tabMod {} s.dram.near n f } }

def State.nor (s : State) (n : Nat) : Nor := tabGet {} s.mgmt.nor n
def State.modNor (s : State) (n : Nat) (f : Nor → Nor) : State :=
  { s with mgmt := { s.mgmt with nor := tabMod {} s.mgmt.nor n f } }

def State.wqueue (s : State) (q : Nat) : WQueue := tabGet {} s.wq.queues q
def State.modWq (s : State) (q : Nat) (f : WQueue → WQueue) : State :=
  { s with wq := { s.wq with queues := tabMod {} s.wq.queues q f } }

/-- Takes one counter of a table up by `n`. -/
def tabInc (t : Tab Nat) (i n : Nat) : Tab Nat := tabMod 0 t i (· + n)

/-! ### Sizes of the variant (Tables 0-1, 20-7) -/

/-- User-visible deep tier, in bytes. -/
def State.deepUser (s : State) : Nat := if s.variant = 2 then 0x078000000000 else 0x0F0000000000
def State.deepRaw (s : State) : Nat := if s.variant = 2 then 0x080000000000 else 0x100000000000
def State.deepSpare (s : State) : Nat := if s.variant = 2 then 0x006000000000 else 0x00C000000000
def State.deepMeta (s : State) : Nat := if s.variant = 2 then 0x002000000000 else 0x004000000000

/-! ### 64-bit accesses in halves (R12) -/

/-- The lower half a requester holds for a register. -/
def State.heldHalf (s : State) (rq : Requester) (addr : Nat) : Option Nat :=
  (s.host.held.find? (fun h => h.rq == rq && h.addr == addr)).map (·.value)

def State.dropHeld (s : State) (rq : Requester) (addr : Nat) : State :=
  { s with host := { s.host with held := s.host.held.filter (fun h => !(h.rq == rq && h.addr == addr)) } }

/-- A write of a 64-bit RW or WO register, whole or by halves (R12): the value it makes the register take, if any. `cur` is its current value. -/
def State.write64 (s : State) (rq : Requester) (addr cur : Nat) (a : Access64) : Option Nat × State :=
  match a with
  | .full v => (some (v % 2 ^ 64), s.dropHeld rq addr)
  | .lower v =>
    let s := s.dropHeld rq addr
    (none, { s with host := { s.host with held := s.host.held ++ [{ rq := rq, addr := addr, value := v % 2 ^ 32 }] } })
  | .upper v =>
    let lo := (s.heldHalf rq addr).getD (cur % 2 ^ 32)
    (some (v % 2 ^ 32 * 2 ^ 32 + lo), s.dropHeld rq addr)

/-- The requester may use the management register space: the management controller, or the test access port while JTAG_DATA is open (R391). -/
def State.mgmtRights (s : State) (rq : Requester) : Bool :=
  match rq with
  | .mgmt => true
  | .tap => s.sec.dbgData
  | .ld _ _ => false

/-! ### The prompt book's assignments (Tables 16-5 to 16-11) -/

def State.pb (s : State) : PromptBook := s.mgmt.pb

def PromptBook.part? (b : PromptBook) (p : Nat) : Option PbPart := b.partitions.find? (fun x => x.num == p)

/-- The range list of a partition (R330). -/
def PromptBook.rangesOf (b : PromptBook) (p : Nat) : List PbRange := b.ranges.filter (fun r => r.part == p)

def PromptBook.range? (b : PromptBook) (p i : Nat) : Option PbRange := (b.rangesOf p)[i]?

def PromptBook.ring? (b : PromptBook) (r : Nat) : Option PbRing := b.rings.find? (fun x => x.ring == r)

def PromptBook.port? (b : PromptBook) (p : Nat) : Option PbPort := b.ports.find? (fun x => x.port == p)

def PromptBook.region? (b : PromptBook) (rid : Nat) : Option PbRegion := b.regions.find? (fun x => x.rid == rid)

def PromptBook.tier? (b : PromptBook) (p : Nat) : Option PbTier := b.tiers.find? (fun x => x.part == p)

/-- The partition that owns an LD (Table 16-5). -/
def PromptBook.partOfLd (b : PromptBook) (i : Nat) : Option Nat :=
  (b.partitions.find? (fun x => bit x.ldMask i && decide (i < 128))).map (·.num)

/-- The partition of a requester for the callboard: an LD's owner, otherwise 0xFF. -/
def State.rqPart (s : State) (rq : Requester) : Nat :=
  match rq with
  | .ld p l => (s.pb.partOfLd (ldIdx p l)).getD 0xFF
  | _ => 0xFF

/-- The LDs of a partition, in ascending number. -/
def PromptBook.ldsOf (b : PromptBook) (p : Nat) : List Nat :=
  match b.part? p with
  | none => []
  | some x => (List.range 128).filter (fun i => bit x.ldMask i)

/-- The LDs that are enabled: in safe mode LD 0 of each port (R337). -/
def State.ldEnabled (s : State) (port ld : Nat) : Bool :=
  if s.mgmt.phase = .safe then ld == 0
  else match s.pb.port? port with
    | some x => x.enable && decide (ld < x.ldCount)
    | none => false

/-- Contributed cavern share, in bytes: SHARE_PCT of the user-visible capacity, rounded down to 1 GiB (R200). -/
def State.share (s : State) : Nat := s.deepUser * s.pb.sharePct / 100 / 0x40000000 * 0x40000000

/-- First module address of the share (R22). -/
def State.shareBase (s : State) : Nat := s.deepUser - s.share

/-- The data plane is up (Table 21-5). -/
def State.dataUp (s : State) : Bool := s.mgmt.phase == .up

/-- The hub die runs: its registers and ports answer. -/
def State.hubUp (s : State) : Bool := s.mgmt.phase == .up || s.mgmt.phase == .safe || s.mgmt.phase == .reloading

/-- The management processor answers (Table 16-15 step 3, R355). -/
def State.mgmtUp (s : State) : Bool := s.mgmt.standby && !s.mgmt.resetLow && s.mgmt.phase != .off && s.mgmt.phase != .held

/-! ### Layout of an LD's DPA space (R39) -/

/-- A window of an LD's DPA space: a range or its aperture. -/
structure Span where
  base : Nat
  size : Nat
  part : Nat
  idx : Nat
  rng : PbRange
  apt : Bool
deriving DecidableEq, Repr

/-- Lays out ranges and apertures in prompt-book order, each aligned to 256 MiB; an aperture follows its range (R39, DEDUCED, log 17). -/
def layoutFrom : Nat → List (Nat × PbRange) → List Span
  | _, [] => []
  | a, (i, r) :: t =>
    let a := alignUp a 0x10000000
    let s1 : Span := { base := a, size := r.size, part := r.part, idx := i, rng := r, apt := false }
    if r.aperture then
      let b := alignUp (a + r.size) 0x10000000
      s1 :: { base := b, size := r.size, part := r.part, idx := i, rng := r, apt := true } :: layoutFrom (b + r.size) t
    else s1 :: layoutFrom (a + r.size) t

/-- The windows of an LD's DPA space. -/
def PromptBook.layout (b : PromptBook) (i : Nat) : List Span :=
  match b.partOfLd i with
  | none => []
  | some p =>
    let rs := b.rangesOf p
    layoutFrom 0 (((List.range rs.length).zip rs).filter (fun x => bit x.2.ldMask i && x.2.kind != 2))

/-- DPA capacity of an LD in bytes (Table 16-9). -/
def State.ldCap (s : State) (port ld : Nat) : Nat :=
  if s.mgmt.phase = .safe then 0
  else match s.pb.port? port with
    | some x => (x.ldCap[ld]?.getD 0) * 0x10000000
    | none => 0

/-! ### The callboard (R347, R348) -/

/-- MGMT cycles in a second. -/
def mgmtHz : Nat := 500000000

/-- The bytes of a callboard entry (Table 17-3). -/
def LogEnt.bytes (e : LogEnt) : Bytes :=
  leBytes 4 e.seq ++ leBytes 8 e.stamp ++ leBytes 1 e.code ++ leBytes 1 e.cls ++ leBytes 1 e.part ++ leBytes 1 (e.sev * 64) ++
    (if e.cls = 4 then slice e.record 0 16 else leBytes 2 e.unit ++ leBytes 2 0 ++ leBytes 4 e.count ++ leBytes 8 e.value)

/-- Sends, or holds pending, an MSI-X message of an LD's vector (R75, R76). -/
def State.msix (s : State) (i v : Nat) (why : Option Notice) : State :=
  let l := s.ld i
  if l.msixEnable && !l.funcMask && setHas l.unmasked v then s.emit (.msix i v why)
  else s.modLd i (fun l => { l with pend := setAdd l.pend v })

/-- Vector 0 on every LD of a partition (R75). -/
def State.vector0 (s : State) (p : Nat) (why : Notice) : State :=
  (s.pb.ldsOf p).foldl (fun s i => s.msix i 0 (some why)) s

/-- Vector 0 on every LD (R339, R252). -/
def State.vector0All (s : State) (why : Notice) : State :=
  s.pb.partitions.foldl (fun s x => s.vector0 x.num why) s

/-- Raises an alert of an LD: an event record of its Warning log, shown by Get Event Records and signalled under the LD's policy (Table 2-7; DESIGN CHOICE,
DESIGN CHOICE, log 120). -/
def State.alert (s : State) (i : Nat) (media : Bool) (value : Int) : State :=
  let s := s.modLd i (fun l => { l with
    alerts := l.alerts ++ [{ handle := l.alertSeq, media := media, value := value }]
    alertSeq := (l.alertSeq + 1) % 65536 })
  let s := if (s.ld i).evPolicy[1]?.getD false then s.msix i 0 (some .eventRecord) else s
  s.emit (.alert i media)

/-- Appends an entry to the ring, which keeps the newest 2,048 (R347). -/
def State.pushLog (s : State) (e : LogEnt) : State :=
  let l := s.mgmt.log ++ [e]
  let l := l.drop (l.length - 2048)
  let next := (e.seq + 1) % 2 ^ 32
  { s with mgmt := { s.mgmt with log := l, logNext := next, logOldest := (next + 2 ^ 32 - l.length) % 2 ^ 32 } }

/-- Vector 0 of the LDs whose event-interrupt policy signals the log an entry is shown in (R75, R351). -/
def State.notifyEvent (s : State) (part sev : Nat) : State :=
  s.host.lds.foldl (fun s x =>
    if (x.2.evPolicy[sev]?.getD false) && (part == 0xFF || s.pb.partOfLd x.1 == some part)
    then s.msix x.1 0 (some .eventRecord) else s) s

/-- Writes a callboard entry (R347, R348), stamped with the MGMT counter (R34). -/
def State.logRec (s : State) (e : Ev) (part unit count value : Nat) (record : Bytes) : State :=
  let cc := e.clsCode
  let sev := e.severity count value
  (s.pushLog { seq := s.mgmt.logNext, stamp := s.clk.mgmt, code := cc.2, cls := cc.1, part := part, sev := sev,
               unit := unit % 65536, count := count % 2 ^ 32, value := value % 2 ^ 64, record := record }).notifyEvent part sev

/-- Writes a callboard entry with its UNIT, COUNT and VALUE. -/
def State.logEv (s : State) (e : Ev) (part unit count value : Nat) : State := s.logRec e part unit count value []

/-- BAD_ACCESS with the address in VALUE (R12, Table 17-4). -/
def State.badAccess (s : State) (part addr : Nat) : State := s.logEv .badAccess part 0 0 addr

/-- Counts an ignored access in PART_NOPERM (Table 3-7). -/
def State.noPerm (s : State) (p : Nat) : State := s.modPart p (fun x => { x with noPerm := x.noPerm + 1 })

/-- Writes an entry of an event recorded at most once per MGMT second, with the number since the last in COUNT (R37, R289).
`key` names the event's source in `Mgmt.rateCnt`. -/
def State.logRated (s : State) (key : Nat) (n : Nat) (put : Nat → State → State) : State :=
  let cnt := tabGet 0 s.mgmt.rateCnt key + n
  match tabFind s.mgmt.rateSec key with
  | some at_ =>
    if s.clk.mgmt < at_ + mgmtHz then { s with mgmt := { s.mgmt with rateCnt := tabSet s.mgmt.rateCnt key cnt } }
    else put cnt { s with mgmt := { s.mgmt with rateCnt := tabSet s.mgmt.rateCnt key 0, rateSec := tabSet s.mgmt.rateSec key s.clk.mgmt } }
  | none =>
    put cnt { s with mgmt := { s.mgmt with rateCnt := tabSet s.mgmt.rateCnt key 0, rateSec := tabSet s.mgmt.rateSec key s.clk.mgmt } }

/-! ### Units in service (Tables 1-2, 1-3, 13-4) -/

def State.isFailed (s : State) (u : UnitId) : Bool := s.ras.failed.contains u

/-- A compute die is in service: it has not failed and its link to the hub is up (R20). -/
def State.dieOk (s : State) (d : Nat) : Bool :=
  if d = 0 then !s.isFailed .dieA && !s.ras.d2dDown.contains .aHub
  else !s.isFailed .dieB && !s.ras.d2dDown.contains .bHub

def State.regionOk (s : State) (r : Nat) : Bool := s.dieOk (r / 4) && !s.isFailed (.region r)

/-- A cluster is in service: neither it, its scalar sequencer nor its region has failed (Table 1-2). -/
def State.clusterOk (s : State) (c : Nat) : Bool :=
  s.regionOk (c / 8) && !s.isFailed (.cluster c) && !s.isFailed (.scalar c)

def State.matrixOk (s : State) (m : Nat) : Bool :=
  s.clusterOk (m / 4) && !s.isFailed (.matrix m) && !s.isFailed (.operandExpander m)

def State.vectorOk (s : State) (c : Nat) : Bool := s.clusterOk c && !s.isFailed (.vector c)

/-- A near-tier stack is in service: its region is, and its controller has not failed. -/
def State.stackOk (s : State) (n : Nat) : Bool := s.regionOk (n / 2) && !s.isFailed (.nearCtl n)

/-- A pseudo-channel is in service (R285). -/
def State.pcOk (s : State) (n pc : Nat) : Bool := s.stackOk n && !setHas (s.ctl (.near n)).out pc

/-- A deep-tier rank is in service: not retired (Tables 12-6, 13-8). -/
def State.rankOk (s : State) (k : Nat) : Bool := (s.rank k).st != 3 && (s.rank k).st != 4

def countUp (n : Nat) (f : Nat → Bool) : Nat := ((List.range n).filter f).length

def State.matrixUnits (s : State) : Nat := countUp 256 s.matrixOk
def State.clusters (s : State) : Nat := countUp 64 s.clusterOk
def State.vectorUnits (s : State) : Nat := countUp 64 s.vectorOk
def State.stacks (s : State) : Nat := countUp 16 s.stackOk
def State.pcs (s : State) : Nat := ((List.range 16).map (fun n => countUp 32 (s.pcOk n))).sum
def State.ranksIn (s : State) : Nat := countUp 64 s.rankOk

/-- A unit, link, pseudo-channel or rank is out of service (Table 21-5, R376). -/
def State.degraded (s : State) : Bool :=
  !s.ras.failed.isEmpty || !s.ras.d2dDown.isEmpty ||
    s.dram.near.any (fun x => !x.2.out.isEmpty) || s.ras.ranks.any (fun x => x.2.st == 3 || x.2.st == 4)

/-! ### Budget charges (R241, R242) -/

/-- Key of the use of an activity in a class at an arbitration point. -/
def budKey (cls point act : Nat) : Nat := (cls * 1024 + point) * 65536 + act

/-- Charges units of a class at a point to an activity, less what it has been charged for them before (R241, R253; DESIGN CHOICE, log 106). -/
def State.charge (s : State) (cls point act n : Nat) : State :=
  let k := budKey cls point act
  let paid := min n (tabGet 0 s.bud.credit k)
  let s := if paid = 0 then s else { s with bud := { s.bud with credit := tabMod 0 s.bud.credit k (· - paid) } }
  if n = paid then s else { s with bud := { s.bud with use := tabInc s.bud.use k (n - paid) } }

end Sys2Proof.Machine
end

