-- ==== Sys2Proof/Machine/Clock.lean ====
section
/-! DEFINITION. Passing time: the local counters of the clock domains (R30, Table 1-8). -/

namespace Sys2Proof.Machine

/-- LINK cycles in 160 ns at a port's rate: 1.0 GHz at 64 GT/s, rate / 64 at lower rates (Table 1-8). -/
def linkCycles (p : Port) : Nat := if p.link = .l0 then 160 * p.rate / 64 else 0

/-- The clocks after 160 ns (DESIGN CHOICE, log 1). The MGMT counter runs from the standby rail; the others once their PLLs have locked (R30, R334);
a LINK counter while the port is in L0, a PEER counter while the port is up, and a die-to-die counter while its link is. -/
def advance (s : State) : Clocks :=
  let c := s.clk
  let c := if s.mgmt.standby && s.mgmt.phase != .off && !s.mgmt.resetLow then { c with mgmt := c.mgmt + 80 } else c
  let link := (List.range 8).foldl (fun t p => if linkCycles (s.port p) = 0 then t else tabInc t p (linkCycles (s.port p))) c.link
  if !c.running then { c with link := link }
  -- in safe mode the hub die runs alone (R337)
  else if s.mgmt.phase = .safe then { c with link := link, hmesh := c.hmesh + 224 }
  else
    let die := fun (x : Nat × Nat) (n : Nat) => (x.1 + n, x.2 + n)
    { c with
      link := link
      arith := die c.arith 280
      cmesh := die c.cmesh 256
      near := die c.near 256
      deep := c.deep + 288
      hmesh := c.hmesh + 224
      peer := (List.range 4).foldl (fun t p => if (s.cport p).up then tabInc t p 125 else t) c.peer
      d2d := ([D2dLink.aHub, .bHub, .aB].zip [0, 1, 2]).foldl (fun t x => if s.ras.d2dDown.contains x.1 then t else tabInc t x.2 320) c.d2d }

/-- What a step on an empty queue does in place of idling: 160 ns pass (DESIGN CHOICE, log 1). -/
def idle (s : State) : State := { s with clk := advance s }

end Sys2Proof.Machine
end

