-- ==== Sys2Proof/Machine/Budget.lean ====
section
/-! DEFINITION. Resource classes, shares, derating and throttles (R240 to R255).
Classes are numbered as in Table 11-5; activities as in Table 16-10, with 0x81 for MAINT and 0x100 + LD for an LD at its port. -/

namespace Sys2Proof.Machine

def clsNear : Nat := 0
def clsDeep : Nat := 1
def clsMatrix : Nat := 2
def clsVector : Nat := 3
def clsHost : Nat := 4
def clsPeer : Nat := 5

def actCue (p : Nat) : Nat := 0x40 + p
def actColdon : Nat := 0x80
def actMaint : Nat := 0x81
/-- Rebuild traffic of the cavern: best-effort in every class; it uses no guarantee (R243). -/
def actRebuild : Nat := 0x82
def actLd (i : Nat) : Nat := 0x100 + i

/-- Number of arbitration points of a class (Table 11-1). -/
def pointsOf (cls : Nat) : Nat :=
  if cls = 0 then 16 else if cls = 1 then 8 else if cls = 2 ∨ cls = 3 then 64 else if cls = 4 then 8 else 4

/-- Derated capacity per window of a point with every unit in service (Table 11-1). -/
def capValid (cls : Nat) : Nat :=
  if cls = 0 then 7340032 else if cls = 1 then 1032192 else if cls = 2 then 71680 else if cls = 3 then 17920
  else if cls = 4 then 524288 else 921600

/-- In-service derated capacity of a point per window (R251). -/
def State.capNow (s : State) (cls point : Nat) : Nat :=
  if cls = 0 then 229376 * countUp 32 (s.pcOk point)
  else if cls = 1 then
    -- 129,024 bytes for each rank of the pair in service
    129024 * countUp 8 (fun k => s.rankOk (16 * (point / 2) + 8 * (point % 2) + k))
  else if cls = 2 then 17920 * countUp 4 (fun i => s.matrixOk (4 * point + i))
  else if cls = 3 then (if s.vectorOk point then 17920 else 0)
  else if cls = 4 then
    let p := s.port point
    if p.link = .l0 then 524288 * p.rate / 64 / (if p.x8 then 1 else 2) else 0
  else if (s.cport point).up then 921600 else 0

/-- D of a class: at one port for HOST_EGRESS, over the module for every other class. -/
def dValid (cls : Nat) : Nat := if cls = 4 then capValid 4 else capValid cls * pointsOf cls

def State.dNow (s : State) (cls port : Nat) : Nat :=
  if cls = 4 then s.capNow 4 port else ((List.range (pointsOf cls)).map (s.capNow cls)).sum

/-- VALUE[c] of an activity's BUDGETS entry; 0 without one (Table 16-10). -/
def PromptBook.budget (b : PromptBook) (act cls : Nat) : Nat :=
  match b.budgets.find? (fun x => x.activity == act) with
  | some x => x.value[cls]?.getD 0
  | none => 0

def PromptBook.isRt (b : PromptBook) (p : Nat) : Bool := ((b.part? p).map (·.rt)).getD false

/-- THROTTLE_WINDOWS and THROTTLE_CAP (R253, Table 16-10). -/
def PromptBook.throttleWindows (b : PromptBook) : Nat := b.budget 0xFFFF 0
def PromptBook.throttleCap (b : PromptBook) : Nat := b.budget 0xFFFF 1

/-- A partition's prompt-book value in a class; for HOST_EGRESS the sum over its LDs at a port (`port` none: every port). -/
def PromptBook.partValue (b : PromptBook) (p cls : Nat) (port : Option Nat) : Nat :=
  if cls = 4 then
    (((b.ldsOf p).filter (fun i => match port with
      | some q => i / 16 == q
      | none => true)).map (fun i => b.budget (actLd i) 4)).sum
  else b.budget p cls

/-- R: the real-time reservation of a class, at a port for HOST_EGRESS (R244). -/
def PromptBook.rtTotal (b : PromptBook) (cls port : Nat) : Nat :=
  ((b.partitions.filter (·.rt)).map (fun x => b.partValue x.num cls (some port))).sum +
    (if cls = 4 then 0 else ((List.range 64).map (fun p => b.budget (actCue p) cls)).sum + b.budget actColdon cls)

/-- G: the guarantees of the partitions that are not real-time (R250). -/
def PromptBook.guarTotal (b : PromptBook) (cls port : Nat) : Nat :=
  ((b.partitions.filter (fun x => !x.rt)).map (fun x => b.partValue x.num cls (some port))).sum

/-- s of R251 in units of 1/65,536, and whether 0.85 × D_now is below R (R252). -/
def scaleOf (dNow dVal r : Nat) : Nat × Bool :=
  if 85 * dNow < 100 * r then (0, true)
  else (min 65536 ((85 * dNow - 100 * r) * 65536 / (85 * dVal - 100 * r)), false)

/-- Key of a class's scale: 8 × class + port, port 0 but for HOST_EGRESS. -/
def scaleKey (cls port : Nat) : Nat := 8 * cls + (if cls = 4 then port else 0)

def State.scale (s : State) (cls port : Nat) : Nat := (tabFind s.bud.scale (scaleKey cls port)).getD 65536

/-- Current guarantee of a partition in a class, at a port for HOST_EGRESS (BUD_GUAR); 0 for a real-time partition. -/
def State.guar (s : State) (p cls port : Nat) : Nat :=
  if s.pb.isRt p then 0 else s.pb.partValue p cls (some port) * s.scale cls port / 65536

/-- The activity that a row tracker and a throttle name: cue fills under the partition they serve (R253) (DEDUCED, log 83). -/
def trackAct (act : Nat) : Nat := if 0x40 ≤ act ∧ act < 0x80 then act - 0x40 else act

/-- The throttle of an activity at a channel pair (R253). -/
def State.throttle? (s : State) (pair act : Nat) : Option Throttle :=
  s.bud.throttles.find? (fun t => t.pair == pair && t.act == trackAct act)

/-- Module-level guarantee or reservation of an activity in a class under a factor s (R244, R251); for HOST_EGRESS of an LD. -/
def State.entitledBy (s : State) (scale act cls : Nat) : Nat :=
  if act < 0x40 then
    (if (s.part act).st = 4 then 0 else if s.pb.isRt act then s.pb.partValue act cls none else s.pb.partValue act cls (some 0) * scale / 65536)
  else if 0x100 ≤ act then
    match s.pb.partOfLd (act - 0x100) with
    | some p => if (s.part p).st = 4 then 0 else if s.pb.isRt p then s.pb.budget act 4 else s.pb.budget act 4 * scale / 65536
    | none => 0
  else s.pb.budget act cls

/-- Module-level guarantee or reservation of an activity in a class as it stands (BUD_GUAR, BUD_RT). -/
def State.entitled (s : State) (act cls : Nat) : Nat :=
  s.entitledBy (s.scale cls (if 0x100 ≤ act then (act - 0x100) / 16 else 0)) act cls

/-- An activity is a real-time master: a real-time partition or an LD of one, the cue runner, Coldon receive (R244). -/
def State.isMaster (s : State) (act : Nat) : Bool :=
  if act < 0x40 then s.pb.isRt act
  else if 0x100 ≤ act then ((s.pb.partOfLd (act - 0x100)).map s.pb.isRt).getD false
  else decide (act ≤ actColdon)

/-! ### Boundaries of a counter -/

/-- The first cycle from `from_` on in which a counter is `phase` modulo `period`. -/
def nextAt (from_ phase period : Nat) : Nat := from_ + (phase % period + period - from_ % period) % period

/-! ### Windows and shares (R240, R245, R251, R252, R254) -/

def pointKey (cls point : Nat) : Nat := cls * 1024 + point

/-- Slots that a unit's issue-rate limit leaves in a window: of a matrix unit (`cls` 2) or a vector unit (3), at a level of the ladder (R298, Table 14-2). -/
def slotLimit (cls level : Nat) : Nat :=
  if cls = 2 then ceilDiv ((32 - min level 31) * 17920) 32
  else if level < 32 then 17920 else ceilDiv ((39 - min level 38) * 17920) 8

/-- Slots of a cluster's window after the issue-rate limits (R254, R298); of another class its capacity. -/
def State.slotsNow (s : State) (cls point : Nat) : Nat :=
  if cls = 2 ∨ cls = 3 then s.capNow cls point / 17920 * slotLimit cls (if point < 32 then s.pwr.levelA else s.pwr.levelB) else s.capNow cls point

/-- The basis of a window with every unit in service and no limit. -/
def fullBasis (cls : Nat) : Basis := { cap := capValid cls, total := dValid cls, slots := capValid cls }

/-- The basis that a window beginning now goes by; `total` is D of its class. -/
def State.basisNow (s : State) (cls point total : Nat) : Basis :=
  let port := if cls = 4 then point else 0
  { scale := s.scale cls port, cap := s.capNow cls point, total := total, short := setHas s.bud.rtShort (scaleKey cls port), slots := s.slotsNow cls point }

/-- What a point's running window goes by. -/
def State.basis (s : State) (cls point : Nat) : Basis := (tabFind s.bud.basis (pointKey cls point)).getD (fullBasis cls)

/-- A window begins at points of a class (R251, R254). -/
def State.beginWindows (s : State) (cls : Nat) (points : List Nat) : State :=
  let total := s.dNow cls 0
  points.foldl (fun s p =>
    let b := s.basisNow cls p (if cls = 4 then s.capNow 4 p else total)
    { s with bud := { s.bud with basis := if b = fullBasis cls then tabDel s.bud.basis (pointKey cls p) else tabSet s.bud.basis (pointKey cls p) b } }) s

/-- An activity's share at a point in its running window: in proportion to the point's in-service capacity, rounded up to 64 bytes or a whole slot (R245). When 0.85 × D_now is
below R, the masters share it in proportion to their reservations (R252; that the remaining capacity is 0.85 × D_now is DEDUCED, log 144). -/
def State.shareAt (s : State) (cls point act : Nat) : Nat :=
  if cls = 1 ∧ (s.throttle? point act).isSome then 0
  else if act = actMaint then (if cls = 0 then 32768 else if cls = 1 then 4608 else 0)
  else
    let b := s.basis cls point
    let e := s.entitledBy b.scale act cls
    let r := s.pb.rtTotal cls (if cls = 4 then point else 0)
    if b.total = 0 then 0
    else if b.short && s.isMaster act then
      (let x := ceilDiv (e * 85 * b.cap) (100 * r)
       if cls = 2 ∨ cls = 3 then x else alignUp x 64)
    else if cls = 4 then e
    else
      let x := ceilDiv (e * b.cap) b.total
      if cls = 2 ∨ cls = 3 then x else alignUp x 64

def State.useAt (s : State) (cls point act : Nat) : Nat := tabGet 0 s.bud.use (budKey cls point act)

/-- What all activities have used of a point's running window. -/
def State.usedAt (s : State) (cls point : Nat) : Nat :=
  ((s.bud.use.filter (fun e => e.1 / 65536 == pointKey cls point)).map (·.2)).sum

/-- A throttled activity may still be granted `n` bytes at a pair in this window, cue fills and the partition they serve together (R253). -/
def State.mayGrant (s : State) (pair act n : Nat) : Bool :=
  match s.throttle? pair act with
  | none => true
  | some t => decide (s.useAt 1 pair t.act + (if t.act < 64 then s.useAt 1 pair (actCue t.act) else 0) + n ≤ s.pb.throttleCap)

/-! ### The priority rule (R246 to R248) -/

/-- The real-time master of an activity: 0 the cue runner, 1 Coldon receive, 2 the real-time partitions (R356). -/
def State.masterOf (s : State) (act : Nat) : Option Nat :=
  if 0x40 ≤ act ∧ act < 0x80 then some 0 else if act = actColdon then some 1 else if act < 0x40 ∧ s.pb.isRt act then some 2 else none

/-- The activities of a real-time master. -/
def State.masterActs (s : State) (m : Nat) : List Nat :=
  if m = 0 then s.pb.partitions.map (fun x => actCue x.num)
  else if m = 1 then [actColdon]
  else (s.pb.partitions.filter (·.rt)).map (·.num)

/-- Level of an activity's request at a point (Table 11-3): 3 PANIC, 2 RT, 1 GUARANTEED, 0 BEST_EFFORT. `panic`: its master's panic is raised there. -/
def State.levelOf (s : State) (cls point act : Nat) (panic : Bool) : Nat :=
  if panic then 3
  else if s.useAt cls point act < s.shareAt cls point act then (if s.isMaster act then 2 else 1)
  else 0

/-- Activity a's turn comes before b's: with guarantees or reservations the one that has used less of its share, among best-effort activities the next after the one served
last. Turns are weighted by the shares; the spec does not say how long a turn is (R246; DESIGN CHOICE, log 145). -/
def State.turnBefore (s : State) (cls point level a b : Nat) : Bool :=
  let after := fun x => (x + 0x400 - tabGet 0 s.bud.lastServed (pointKey cls point)) % 0x400
  let ua := s.useAt cls point a * s.shareAt cls point b
  let ub := s.useAt cls point b * s.shareAt cls point a
  if level = 0 ∨ ua = ub then decide (after a < after b) else decide (ua < ub)

/-- The activity that a point grants next, of those with a request waiting, each with the panic of its request (R246). -/
def State.grantee (s : State) (cls point : Nat) (waiting : List (Nat × Bool)) : Option Nat :=
  let ls := waiting.map (fun w => (w.1, s.levelOf cls point w.1 w.2))
  let top := ls.foldl (fun m x => max m x.2) 0
  (ls.filter (fun x => x.2 == top)).foldl (fun (b : Option Nat) x => match b with
    | none => some x.1
    | some y => if s.turnBefore cls point top x.1 y then some x.1 else some y) none

/-- A point has granted a request of an activity. -/
def State.served (s : State) (cls point act : Nat) : State :=
  { s with bud := { s.bud with lastServed := tabSet s.bud.lastServed (pointKey cls point) (act + 1) } }

/-! ### Derating (R251, R252) -/

/-- Recomputes s and RT_SHORT for a class, at a port for HOST_EGRESS, and raises BUDGET_DERATED when s changed (R251, R252). The new shares take effect with each point's
next window. -/
def State.derateOne (s : State) (cls port : Nat) : State :=
  let dn := s.dNow cls port
  let n := scaleOf dn (dValid cls) (s.pb.rtTotal cls port)
  let key := scaleKey cls port
  let s := { s with bud := { s.bud with rtShort := setPut s.bud.rtShort key n.2 } }
  if n.1 = s.scale cls port then s
  else
    let changed := s.pb.partitions.filter (fun x => !x.rt &&
      (s.pb.partValue x.num cls (some port) * n.1 / 65536 != s.guar x.num cls port))
    let s := { s with bud := { s.bud with
      scale := tabSet s.bud.scale key n.1,
      derates := tabMod 0 s.bud.derates key (satAdd 0xFF 1) } }
    let s := changed.foldl (fun s x => s.vector0 x.num .derated) s
    s.logEv .budgetDerated 0xFF key (b2n n.2 * 2 ^ 31 + n.1) dn

/-- Recomputes s for several classes other than HOST_EGRESS. -/
def State.derate (s : State) (classes : List Nat) : State := classes.foldl (fun s c => s.derateOne c 0) s

/-- The budgets begin: every window is full, from where the counters stand (Table 11-7). -/
def State.beginBudgets (s : State) : State :=
  (List.range 6).foldl (fun s c => s.beginWindows c (List.range (pointsOf c))) { s with bud := { since := s.clk } }

/-- Key of the counters of Table 11-5. -/
def actKey (cls act : Nat) : Nat := cls * 65536 + act

/-- Sum over a class's points of a table of last uses. -/
def State.useLast (s : State) (cls act : Nat) : Nat :=
  ((List.range (pointsOf cls)).map (fun q => tabGet 0 s.bud.last (budKey cls q act))).sum

end Sys2Proof.Machine
end

