-- ==== Sys2Proof/Machine/Codec.lean ====
section
/-! DEFINITION. The Golas block format: code tables, coding and checking of blocks, LEGACY decoding, and table building (R112 to R119, R127, R130, R131). -/

namespace Sys2Proof.Machine

/-- Map modes (Table 5-1). -/
def modeRaw : Nat := 0
def modeGolas : Nat := 1
def modeLegacy : Nat := 2
def modeZero : Nat := 3

/-- First codes of the 15 lengths, from the number of values of each length (R115). -/
def firstCodes (lens : List Nat) : List Nat :=
  ((List.range 15).foldl (fun (acc : List Nat × Nat) n =>
    -- acc.2 is the first code of length n; the next length follows from the count of length n
    let cnt := if n = 0 then 0 else lens.countP (· == n)
    let code := (acc.2 + cnt) * 2
    (acc.1 ++ [code], code)) ([0], 0)).1

/-- A code: its value, length and bits. -/
structure Code where
  val : Nat
  len : Nat
  code : Nat
deriving DecidableEq, Repr

/-- The canonical codes of a table (R115). -/
def codesOf (lens : List Nat) : List Code :=
  ((lens.foldl (fun (acc : List Code × List Nat × Nat) l =>
    let s := acc.2.2
    if l = 0 then (acc.1, acc.2.1, s + 1)
    else
      let c := acc.2.1[l]?.getD 0
      (⟨s, l, c⟩ :: acc.1, acc.2.1.set l (c + 1), s + 1)) ([], firstCodes lens, 0)).1).reverse

/-- A table is valid when a value has a code and the lengths satisfy Kraft's inequality (R115). -/
def tableValid (lens : List Nat) : Bool :=
  lens.any (· != 0) && decide ((lens.map (fun l => if l = 0 then 0 else 2 ^ (15 - l))).sum ≤ 2 ^ 15)

/-- The bits of a code, most significant first (R116). -/
def Code.bits (c : Code) : List Bool := (List.range c.len).map (fun i => bit c.code (c.len - 1 - i))

/-- Packs bits, bit k into bit k mod 8 of byte k / 8 (R116). -/
def packBits : Nat → List Bool → Bytes
  | 0, _ => []
  | n + 1, bs =>
    let h := bs.take 8
    BitVec.ofNat 8 (((List.range 8).map (fun i => if h[i]?.getD false then 2 ^ i else 0)).sum) :: packBits n (bs.drop 8)

/-- The bits of a byte string (R116). -/
def unpackBits (bs : Bytes) : List Bool := bs.flatMap (fun b => (List.range 8).map (fun i => b.toNat.testBit i))

/-- Takes `left` codes from a substream, with the bits after them (R116). -/
def takeCodes (tab : List Code) : List Bool → Nat → Nat → Nat → Option (List Nat × List Bool)
  | rest, _, _, 0 => some ([], rest)
  | [], _, _, _ + 1 => none
  | b :: t, len, code, left + 1 =>
    let len := len + 1
    let code := 2 * code + b2n b
    match tab.find? (fun c => c.len == len && c.code == code) with
    | some c => (takeCodes tab t 0 0 left).map (fun r => (c.val :: r.1, r.2))
    | none => if len ≥ 15 then none else takeCodes tab t len code (left + 1)

/-- The 2,048 values of a block (R113). -/
def blockValues (bs : Bytes) : List Nat := (List.range 2048).map (fun i => leAt bs (2 * i) 2)

/-- The exponent of a value (R113). `fmt` 0 is BF16, 1 FP16. -/
def expOf (fmt v : Nat) : Nat := if fmt = 0 then bits v 14 7 else bits v 14 10

/-- Sign and mantissa of a value, as the plane holds them (R113). -/
def planeField (fmt v : Nat) : Nat :=
  if fmt = 0 then bits v 15 15 * 128 + v % 128 else bits v 15 15 * 1024 + v % 1024

def planeWidth (fmt : Nat) : Nat := if fmt = 0 then 8 else 11
def planeBytes (fmt : Nat) : Nat := if fmt = 0 then 2048 else 2816

/-- The sign-mantissa plane (R113). -/
def plane (fmt : Nat) (vs : List Nat) : Bytes :=
  leBytes (planeBytes fmt) ((vs.foldr (fun v acc => acc * 2 ^ planeWidth fmt + planeField fmt v) 0))

/-- Puts a value together from its exponent and its plane field (R113). -/
def joinValue (fmt e f : Nat) : Nat :=
  if fmt = 0 then bits f 7 7 * 2 ^ 15 + e * 128 + f % 128 else bits f 10 10 * 2 ^ 15 + e * 1024 + f % 1024

/-- The coded substreams of a block, each padded to whole words; none when an exponent has no code (R114). -/
def substreams (tab : List Code) (es : List Nat) : Option (List Bytes) :=
  (List.range 16).mapM (fun j =>
    let sub := (List.range 128).map (fun k => es[16 * k + j]?.getD 0)
    (sub.mapM (fun e => (tab.find? (fun c => c.val == e)).map Code.bits)).map (fun cs =>
      let b := cs.flatten
      packBits (ceilDiv b.length 16 * 2) b))

/-- OFF of each substream, in words (R114). -/
def offsets (ss : List Bytes) : List Nat :=
  (ss.foldl (fun (acc : List Nat × Nat) x => (acc.1 ++ [acc.2], acc.2 + x.length / 2)) ([], 0)).1

/-- A coded form: its map entry (without replica) and the bytes of its sectors, zero-padded. -/
structure Form where
  ent : MapEnt
  bytes : Bytes
deriving DecidableEq, Repr

/-- ZERO and RAW entries carry the format of their range (Table 5-1). -/
def zeroForm (fmt : Nat := 0) : Form := { ent := { sectors := 0, mode := modeZero, fmt := fmt }, bytes := [] }
def rawForm (bs : Bytes) (fmt : Nat := 0) : Form := { ent := { sectors := 16, mode := modeRaw, fmt := fmt }, bytes := bs }

/-- The header of a coded block before its CHECK, bytes 0 to 27 (Table 5-2). -/
def headerBytes (mode fmt slot gen len words : Nat) (offs : List Nat) : Bytes :=
  let off := ((List.range 15).map (fun j => (offs[j + 1]?.getD 0 % 1024) * 2 ^ (10 * j))).sum
  leBytes 1 (0x10 + mode) ++ leBytes 1 fmt ++ leBytes 1 slot ++ leBytes 1 gen ++ leBytes 2 len ++ leBytes 2 words ++
    leBytes 19 off ++ leBytes 1 0

/-- Codes a block with the table of a slot, taking its mode by R118. -/
def codeBlock (fmt slot gen : Nat) (lens : Option (List Nat)) (bs : Bytes) : Form :=
  if bs.all (· == 0) then zeroForm fmt
  else match lens with
    | none => rawForm bs fmt
    | some ls =>
      let vs := blockValues bs
      match substreams (codesOf ls) (vs.map (expOf fmt)) with
      | none => rawForm bs fmt
      | some ss =>
        let stream := ss.flatten
        let len := 32 + planeBytes fmt + stream.length
        if stream.length > 2048 || len > 3840 then rawForm bs fmt
        else
          let h := headerBytes modeGolas fmt slot gen len (stream.length / 2) (offsets ss)
          let body := plane fmt vs ++ stream
          let chk := crc32c (h ++ body)
          let sec := ceilDiv len 256
          { ent := { gen := gen, slot := slot, sectors := sec, mode := modeGolas, fmt := fmt, check := chk },
            bytes := slice (h ++ leBytes 4 chk ++ body) 0 (256 * sec) }

/-- Why a coded block does not expand (Table 5-8). -/
inductive Damage where
  | damaged
  | stale
deriving DecidableEq, Repr

/-- LEGACY decoding (R130): the rest of the payload, the output so far, newest byte first. Fuel is the payload's length. -/
def legacyGo : Nat → Bytes → List Byte → Option Bytes
  | 0, _, _ => none
  | n + 1, bs, out =>
    match bs with
    | [] => if out.length = 4096 then some out.reverse else none
    | t :: r =>
      let t := t.toNat
      if t < 0x80 then
        let k := t + 1
        if r.length < k || out.length + k > 4096 then none
        else legacyGo n (r.drop k) ((r.take k).reverse ++ out)
      else match r with
        | [] => none
        | x :: r' =>
          if t < 0xC0 then
            let k := t % 64 + 3
            if out.length + k > 4096 then none
            else legacyGo n r' (List.replicate k x ++ out)
          else
            let k := bits t 5 2 + 3
            let back := (t % 4) * 256 + x.toNat + 1
            if back > out.length || out.length + k > 4096 then none
            else legacyGo n r' ((List.range k).foldl (fun o _ => (o[back - 1]?.getD 0) :: o) out)

/-- The 4,096 bytes a LEGACY payload stands for, when its token stream is well formed. -/
def legacyDecode (payload : Bytes) : Option Bytes := legacyGo (payload.length + 1) payload []

/-- Decodes the exponents of a GOLAS-E block (check 4 of Table 5-8). -/
def decodeExps (tab : List Code) (words : Nat) (offs : List Nat) (stream : Bytes) : Option (List Nat) :=
  let ends := offs.drop 1 ++ [words]
  if !((offs.zip ends).all (fun x => decide (x.1 ≤ x.2))) then none
  else
    ((offs.zip ends).mapM (fun (x : Nat × Nat) =>
      match takeCodes tab (unpackBits (slice stream (2 * x.1) (2 * (x.2 - x.1)))) 0 0 128 with
      | some (es, rest) => if rest.length < 16 && rest.all (! ·) then some es else none
      | none => (none : Option (List Nat)))).map (fun subs =>
        (List.range 2048).map (fun i => (subs[i % 16]?.getD [])[i / 16]?.getD 0))

/-- Checks and expands the stored form of a block against its map entry (R127, Table 5-8). `slot` is the state of the slot
that the entry names: its GEN and lengths when it is LIVE or RETIRING. -/
def expandForm (ent : MapEnt) (slot : Option (Nat × List Nat)) (bs : Bytes) : Except Damage Bytes :=
  if ent.mode = modeZero then .ok (List.replicate 4096 0)
  else if ent.mode = modeRaw then .ok (slice bs 0 4096)
  else
    let b0 := leAt bs 0 1
    let b1 := leAt bs 1 1
    let len := leAt bs 4 2 % 4096
    let words := leAt bs 6 2 % 2048
    let off := leAt bs 8 19
    let start := 32 + planeBytes ent.fmt
    let chk := crc32c (slice bs 0 28 ++ slice bs 32 (len - 32))
    if !(b0 == 0x10 + ent.mode && b1 == ent.fmt && leAt bs 4 2 < 4096 && leAt bs 6 2 < 2048 &&
        decide (off < 2 ^ 150) && leAt bs 27 1 == 0) then .error .damaged
    else if !(leAt bs 2 1 == ent.slot && leAt bs 3 1 == ent.gen) then .error .stale
    else if ent.mode = modeLegacy then
      if !(ent.slot == 0 && ent.gen == 0) then .error .stale
      else if !(decide (33 ≤ len) && decide (len ≤ 4095) && ceilDiv len 256 == ent.sectors &&
          leAt bs 28 4 == ent.check && ent.check == chk) then .error .damaged
      else match legacyDecode (slice bs 32 (len - 32)) with
        | some out => .ok out
        | none => .error .damaged
    else match slot with
      | none => .error .stale
      | some (gen, lens) =>
        if gen != ent.gen then .error .stale
        else
          let lo := if ent.fmt = 0 then 2336 else 3104
          if !(decide (lo ≤ len) && decide (len ≤ 3840) && ceilDiv len 256 == ent.sectors &&
              decide (128 ≤ words) && decide (words ≤ 1024) && len == start + 2 * words &&
              leAt bs 28 4 == ent.check && ent.check == chk) then .error .damaged
          else
            let offs := 0 :: (List.range 15).map (fun j => bits off (10 * j + 9) (10 * j))
            match decodeExps (codesOf lens) words offs (slice bs start (2 * words)) with
            | none => .error .damaged
            | some es =>
              let pl := leNat (slice bs 32 (planeBytes ent.fmt))
              let w := planeWidth ent.fmt
              .ok ((List.range 2048).flatMap (fun i =>
                leBytes 2 (joinValue ent.fmt (es[i]?.getD 0) (bits pl (w * i + w - 1) (w * i)))))

/-- What the adopt form of SEAL makes of a block (R131): its form, whether it is a LEGACY block, whether its tokens are malformed (to be poisoned). -/
structure Adopted where
  form : Form
  legacy : Bool := false
  malformed : Bool := false

/-- Classifies a block for the adopt form of SEAL (R131) (DEDUCED, log 56). -/
def adoptBlock (bs : Bytes) : Adopted :=
  let len := leAt bs 4 2
  let isLegacy := leAt bs 0 1 == 0x12 && leAt bs 1 1 == 0 && leAt bs 2 1 == 0 && leAt bs 3 1 == 0 &&
    decide (33 ≤ len) && decide (len ≤ 4095) && decide (leAt bs 6 2 < 2048) && decide (leAt bs 8 19 < 2 ^ 150) && leAt bs 27 1 == 0 &&
    leAt bs 28 4 == crc32c (slice bs 0 28 ++ slice bs 32 (len - 32))
  if isLegacy then
    match legacyDecode (slice bs 32 (len - 32)) with
    | none => { form := rawForm bs, malformed := true }
    | some out =>
      if len > 3840 then { form := rawForm out, legacy := true }
      else
        let sec := ceilDiv len 256
        { form := { ent := { sectors := sec, mode := modeLegacy, check := leAt bs 28 4 }, bytes := slice (slice bs 0 len) 0 (256 * sec) }
          legacy := true }
  else if bs.all (· == 0) then { form := zeroForm }
  else { form := rawForm bs }

/-! ### Building a table (R119) -/

/-- An item of the package-merge: its weight and the values in it. -/
abbrev PkgItem := Nat × List Nat

/-- Inserts an item into a list by rising weight, after items of equal weight. -/
def insertItem (x : PkgItem) : List PkgItem → List PkgItem
  | [] => [x]
  | y :: t => if x.1 < y.1 then x :: y :: t else y :: insertItem x t

/-- Pairs of neighbours; an odd last item is dropped. -/
def pairUp : List PkgItem → List PkgItem
  | a :: b :: t => (a.1 + b.1, a.2 ++ b.2) :: pairUp t
  | _ => []

/-- Merges packages into leaves by rising weight; of equal weights the leaf comes first. -/
def mergeItems : Nat → List PkgItem → List PkgItem → List PkgItem
  | 0, _, _ => []
  | _ + 1, [], ps => ps
  | _ + 1, ls, [] => ls
  | n + 1, l :: ls, p :: ps => if l.1 ≤ p.1 then l :: mergeItems n ls (p :: ps) else p :: mergeItems n (l :: ls) ps

/-- Code lengths of the weights of the values 0, 1, …, by package-merge limited to 15 bits; none when no weight is nonzero (R119). -/
def packageMerge (w : List Nat) : Option (List Nat) :=
  let leaves := ((List.range w.length).filterMap (fun s =>
    let x := w[s]?.getD 0
    if x = 0 then none else some ((x, [s]) : PkgItem))).foldl (fun acc x => insertItem x acc) []
  let n := leaves.length
  if n = 0 then none
  else if n = 1 then some ((List.range 256).map (fun s => if leaves.any (fun x => x.2 == [s]) then 1 else 0))
  else
    let list := (List.range 14).foldl (fun l _ =>
      let ps := pairUp l
      mergeItems (leaves.length + ps.length + 1) leaves ps) leaves
    let used := ((list.take (2 * n - 2)).map (·.2)).flatten
    some ((List.range 256).map (fun s => used.countP (· == s)))

/-- Adds the exponents of a block to a histogram. -/
def addHist (fmt : Nat) (h : List Nat) (vs : List Nat) : List Nat :=
  vs.foldl (fun h v => let e := expOf fmt v; h.set e (h[e]?.getD 0 + 1)) h

/-- The code lengths of a group from the sampled bytes of its blocks, in order (R119): `S` the sample size in bytes, `F` the weight floor.
Blocks that are all zero are passed over; the caller passes over blocks with poisoned lines. -/
def buildTable (fmt sample floor : Nat) (blocks : List Bytes) : Option (List Nat) :=
  let live := blocks.filter (fun b => !b.all (· == 0))
  let vals := ((live.take (ceilDiv sample 4096)).flatMap blockValues).take (sample / 2)
  let nval := if fmt = 0 then 256 else 32
  let h := addHist fmt (List.replicate nval 0) vals
  packageMerge (h.map (· + floor))

end Sys2Proof.Machine
end

