-- ==== Sys2Proof/Machine/Float.lean ====
section
/-! DEFINITION. Number formats, conversions and correctly rounded arithmetic (R139 to R148, R152, R153).
A finite value is exact: a sign, a natural mantissa and a power of two. -/

namespace Sys2Proof.Machine

/-- A value of an arithmetic unit. `fin neg m e` is (-1)^neg × m × 2^e; `fin true 0 _` is −0. -/
inductive FVal where
  | nan
  | inf (neg : Bool)
  | fin (neg : Bool) (m : Nat) (e : Int)
deriving DecidableEq, Repr

/-- How a format marks NaN and infinity (Table 6-3). -/
inductive FSpecial where
  /-- Exponent all ones: mantissa 0 infinity, otherwise NaN. -/
  | ieee
  /-- Only S.1111.111 is NaN; no infinity (E4M3). -/
  | e4m3
  /-- Neither NaN nor infinity (MX elements). -/
  | none
deriving DecidableEq, Repr

/-- A floating format (Table 6-3): exponent bits, mantissa bits, bias. -/
structure FFmt where
  ebits : Nat
  mbits : Nat
  bias : Nat
  special : FSpecial
deriving DecidableEq, Repr

def fp32 : FFmt := ⟨8, 23, 127, .ieee⟩
def bf16 : FFmt := ⟨8, 7, 127, .ieee⟩
def fp16 : FFmt := ⟨5, 10, 15, .ieee⟩
def e4m3 : FFmt := ⟨4, 3, 7, .e4m3⟩
def e5m2 : FFmt := ⟨5, 2, 15, .ieee⟩
def e2m3 : FFmt := ⟨2, 3, 1, .none⟩
def e3m2 : FFmt := ⟨3, 2, 3, .none⟩
def e2m1 : FFmt := ⟨2, 1, 1, .none⟩

/-- The exponent of one unit of a format's subnormal spacing. -/
def FFmt.qmin (f : FFmt) : Int := 1 - (f.bias : Int) - (f.mbits : Int)

/-- The value an encoding stands for (Table 6-3). -/
def fdecode (f : FFmt) (v : Nat) : FVal :=
  let neg := bit v (f.ebits + f.mbits)
  let e := bits v (f.ebits + f.mbits - 1) f.mbits
  let m := v % 2 ^ f.mbits
  let top := e = 2 ^ f.ebits - 1
  if f.special = .ieee ∧ top then (if m = 0 then .inf neg else .nan)
  else if f.special = .e4m3 ∧ top ∧ m = 2 ^ f.mbits - 1 then .nan
  else if e = 0 then .fin neg m f.qmin
  else .fin neg (2 ^ f.mbits + m) ((e : Int) - 1 + f.qmin)

/-- The largest finite value of a format, in units of its top spacing: mantissa and exponent (Table 6-3). -/
def FFmt.maxFin (f : FFmt) : Nat × Int :=
  match f.special with
  | .ieee => (2 ^ (f.mbits + 1) - 1, (2 ^ f.ebits - 2 : Int) - 1 + f.qmin)
  | .e4m3 => (2 ^ (f.mbits + 1) - 2, (2 ^ f.ebits - 1 : Int) - 1 + f.qmin)
  | .none => (2 ^ (f.mbits + 1) - 1, (2 ^ f.ebits - 1 : Int) - 1 + f.qmin)

/-- m₁ × 2^e₁ ≤ m₂ × 2^e₂. -/
def dyLe (a b : Nat × Int) : Bool :=
  let lo := min a.2 b.2
  decide (a.1 <<< (a.2 - lo).toNat ≤ b.1 <<< (b.2 - lo).toNat)

/-- m₁ × 2^e₁ < m₂ × 2^e₂. -/
def dyLt (a b : Nat × Int) : Bool := !dyLe b a

/-- Encodes a finite magnitude m × 2^e that the format represents. -/
def fencode (f : FFmt) (neg : Bool) (m : Nat) (e : Int) : Nat :=
  let sgn := b2n neg <<< (f.ebits + f.mbits)
  if m = 0 then sgn
  else
    let l := (Nat.log2 m : Int) + e            -- floor(log2) of the value
    let q := max (l - f.mbits) f.qmin
    let k := if e ≥ q then m <<< (e - q).toNat else m >>> (q - e).toNat
    if k < 2 ^ f.mbits then sgn + k
    else sgn + (((q - f.qmin).toNat + 1) <<< f.mbits) + (k - 2 ^ f.mbits)

/-- The bit pattern of the canonical NaN of a format (Table 6-4). -/
def FFmt.nanBits (f : FFmt) : Nat :=
  match f.special with
  | .ieee => ((2 ^ f.ebits - 1) <<< f.mbits) + 2 ^ (f.mbits - 1)
  | .e4m3 => 2 ^ (f.ebits + f.mbits) - 1
  | .none => 0

/-- The bit pattern of a signed infinity of a format that has one. -/
def FFmt.infBits (f : FFmt) (neg : Bool) : Nat :=
  (b2n neg <<< (f.ebits + f.mbits)) + ((2 ^ f.ebits - 1) <<< f.mbits)

/-- The bit pattern of the signed largest finite value. -/
def FFmt.maxBits (f : FFmt) (neg : Bool) : Nat := fencode f neg f.maxFin.1 f.maxFin.2

/-- The rounding modes (R146). -/
inductive Rnd where
  | rne
  | rtz
  | sr
deriving DecidableEq, Repr

/-- A magnitude split at the spacing of a format: `k` units of 2^q at or below it, and the rest `rem` of `2^sh`. -/
structure Split where
  k : Nat
  q : Int
  rem : Nat
  sh : Nat
deriving DecidableEq, Repr

/-- Splits m × 2^e (m > 0) at the spacing of a format with `mbits` mantissa bits and smallest unit 2^qmin. -/
def split (mbits : Nat) (qmin : Int) (m : Nat) (e : Int) : Split :=
  let l := (Nat.log2 m : Int) + e
  let q := max (l - mbits) qmin
  if e ≥ q then ⟨m <<< (e - q).toNat, q, 0, 0⟩
  else
    let sh := (q - e).toNat
    ⟨m >>> sh, q, m % 2 ^ sh, sh⟩

/-- Whether a split rounds away from zero under RNE: more than half, or half with an odd unit count. -/
def Split.upRne (s : Split) : Bool :=
  s.sh > 0 && (decide (2 * s.rem > 2 ^ s.sh) || (decide (2 * s.rem = 2 ^ s.sh) && s.k % 2 == 1))

/-- f × 65,536 rounded down, for the fraction of R147. -/
def Split.frac16 (s : Split) : Nat := (s.rem <<< 16) >>> s.sh

/-- Rounds a finite value to a format under RNE, overflow to infinity (or to NaN where the format has none). -/
def roundRne (f : FFmt) (v : FVal) : FVal :=
  match v with
  | .fin neg m e =>
    if m = 0 then .fin neg 0 0
    else
      let s := split f.mbits f.qmin m e
      let k := s.k + b2n s.upRne
      if dyLt f.maxFin (k, s.q) then (if f.special = .e4m3 then .nan else .inf neg)
      else .fin neg k s.q
  | v => v

/-- A value of a format as bits; the value is representable. NaN gives the canonical NaN. -/
def fbits (f : FFmt) : FVal → Nat
  | .nan => f.nanBits
  | .inf neg => f.infBits neg
  | .fin neg m e => fencode f neg m e

/-! ### Arithmetic, exact until rounded (R149, R150, R152) -/

def fneg : FVal → FVal
  | .nan => .nan
  | .inf n => .inf (!n)
  | .fin n m e => .fin (!n) m e

def fabs : FVal → FVal
  | .nan => .nan
  | .inf _ => .inf false
  | .fin _ m e => .fin false m e

/-- The signed integer of a finite value at exponent `lo`, at or below its own. -/
def scaled (neg : Bool) (m : Nat) (e lo : Int) : Int :=
  let k : Int := (m <<< (e - lo).toNat : Nat)
  if neg then -k else k

/-- Exact sum. An exact zero is +0 unless both addends are −0 (R141). -/
def fadd : FVal → FVal → FVal
  | .nan, _ => .nan
  | _, .nan => .nan
  | .inf a, .inf b => if a = b then .inf a else .nan
  | .inf a, _ => .inf a
  | _, .inf b => .inf b
  | .fin n1 m1 e1, .fin n2 m2 e2 =>
    let lo := min e1 e2
    let t := scaled n1 m1 e1 lo + scaled n2 m2 e2 lo
    if t = 0 then .fin (n1 && n2 && m1 == 0 && m2 == 0) 0 0
    else .fin (decide (t < 0)) t.natAbs lo

/-- Exact product. -/
def fmul : FVal → FVal → FVal
  | .nan, _ => .nan
  | _, .nan => .nan
  | .inf a, .inf b => .inf (a != b)
  | .inf a, .fin n m _ => if m = 0 then .nan else .inf (a != n)
  | .fin n m _, .inf b => if m = 0 then .nan else .inf (n != b)
  | .fin n1 m1 e1, .fin n2 m2 e2 => .fin (n1 != n2) (m1 * m2) (e1 + e2)

def fsub (a b : FVal) : FVal := fadd a (fneg b)

/-- Scales a value by 2^k. -/
def fscale (v : FVal) (k : Int) : FVal :=
  match v with
  | .fin n m e => .fin n m (e + k)
  | v => v

/-- a < b for numbers, −0 equal to +0. -/
def fltNum : FVal → FVal → Bool
  | .nan, _ => false
  | _, .nan => false
  | .inf a, .inf b => a && !b
  | .inf a, _ => a
  | _, .inf b => !b
  | .fin n1 m1 e1, .fin n2 m2 e2 =>
    let lo := min e1 e2
    decide (scaled n1 m1 e1 lo < scaled n2 m2 e2 lo)

def isNan : FVal → Bool
  | .nan => true
  | _ => false

def isInf : FVal → Bool
  | .inf _ => true
  | _ => false

/-- a = b for numbers, −0 equal to +0. -/
def feqNum (a b : FVal) : Bool := !isNan a && !isNan b && !fltNum a b && !fltNum b a

def isNeg : FVal → Bool
  | .nan => false
  | .inf n => n
  | .fin n _ _ => n

def isZero : FVal → Bool
  | .fin _ m _ => m == 0
  | _ => false

/-- Minimum: the non-NaN operand when one is NaN, and −0 below +0 (R152). -/
def fmin (a b : FVal) : FVal :=
  if isNan a then b else if isNan b then a
  else if feqNum a b then (if isNeg a then a else b)
  else if fltNum a b then a else b

/-- Maximum, as `fmin` (R152). -/
def fmax (a b : FVal) : FVal :=
  if isNan a then b else if isNan b then a
  else if feqNum a b then (if isNeg a then b else a)
  else if fltNum a b then b else a

/-- Integer square root, bit by bit: `n` bits of the root of `v`, from the top. -/
def isqrtBits : Nat → Nat → Nat → Nat
  | 0, _, r => r
  | n + 1, v, r =>
    let t := r + 2 ^ n
    isqrtBits n v (if t * t ≤ v then t else r)

/-- floor(sqrt v). -/
def isqrt (v : Nat) : Nat := isqrtBits (Nat.log2 v / 2 + 1) v 0

/-- sqrt with `p` further bits and a sticky bit, enough for one correct rounding to a format of fewer than `p` bits. -/
def fsqrtExact (p : Nat) : FVal → FVal
  | .nan => .nan
  | .inf n => if n then .nan else .inf false
  | .fin n m e =>
    if m = 0 then .fin n 0 0
    else if n then .nan
    else
      -- make the exponent even and the mantissa wide
      let e2 : Int := e - 2 * p - (if (e - 2 * p) % 2 = 0 then 0 else 1)
      let w := m <<< (e - e2).toNat
      let r := isqrt w
      .fin false (2 * r + b2n (decide (r * r ≠ w))) (e2 / 2 - 1)

/-- 1 / a with `p` bits and a sticky bit. -/
def frcpExact (p : Nat) : FVal → FVal
  | .nan => .nan
  | .inf n => .fin n 0 0
  | .fin n m e =>
    if m = 0 then .inf n
    else
      let sh := p + Nat.log2 m + 1
      let k := 2 ^ sh / m
      .fin n (2 * k + b2n (decide (k * m ≠ 2 ^ sh))) (-e - (sh : Int) - 1)

/-! ### FP32 operations: exact, then one rounding (R152) -/

def f32 (b : Nat) : FVal := fdecode fp32 b
def f32Bits (v : FVal) : Nat := fbits fp32 (roundRne fp32 v)

/-- The bits of `v` rounded once, directly, to the format, and held widened to FP32 (R190). -/
def viaFmt (f : FFmt) (v : FVal) : Nat := fbits fp32 (roundRne f v)

/-! ### Stochastic rounding (R147, R148) -/

/-- The state of the lane that handles element `i` before its first draw (R148). -/
def srInit (seed i : Nat) : Nat :=
  let s := (seed ^^^ ((i * 0x9E3779B97F4A7C15) % 2 ^ 64)) % 2 ^ 64
  if s = 0 then 1 else s

/-- The next xorshift state (R148). -/
def srNext (s : Nat) : Nat :=
  let s := s ^^^ ((s <<< 13) % 2 ^ 64)
  let s := s ^^^ (s >>> 7)
  s ^^^ ((s <<< 17) % 2 ^ 64)

/-- The 16-bit draw that a state gives (R148). -/
def srDraw (s : Nat) : Nat := ((s * 0x2545F4914F6CDD1D) % 2 ^ 64) >>> 48

/-! ### Narrowing conversions from FP32 (R144, Table 6-4) -/

/-- A target of a narrowing conversion (Table 6-4). -/
inductive Narrow where
  | flt (f : FFmt)
  | int8
deriving DecidableEq, Repr

/-- The bits an overflow or an infinity gives (Table 6-4). -/
def overflowBits (f : FFmt) (sat neg : Bool) : Nat :=
  if sat then f.maxBits neg
  else match f.special with
    | .ieee => f.infBits neg
    | .e4m3 => 0x7F
    | .none => f.maxBits neg

/-- Rounds a magnitude split to a unit count: the count, and the lane state after any draw (R146, R147).
`step` is the count of the step past the range (the overflow threshold), in the same unit. -/
def roundUnits (rnd : Rnd) (s : Split) (past : Bool) (st : Nat) : Nat × Nat :=
  match rnd with
  | .rne => (s.k + b2n s.upRne, st)
  | .rtz => (s.k, st)
  | .sr =>
    if s.rem = 0 || past then (s.k, st)
    else
      let st' := srNext st
      (s.k + b2n (decide (srDraw st' < s.frac16)), st')

/-- Converts an FP32 value to a narrower floating format: bits, and the lane's random state after it (R144, R147). -/
def narrowFlt (f : FFmt) (rnd : Rnd) (sat : Bool) (v : FVal) (st : Nat) : Nat × Nat :=
  match v with
  | .nan => (f.nanBits, st)
  | .inf neg => (overflowBits f sat neg, st)
  | .fin neg m e =>
    if m = 0 then (fencode f neg 0 0, st)
    else
      let mx := f.maxFin
      let stepPast : Nat × Int := (mx.1 + 1, mx.2)
      -- at or past the step beyond the range: overflow with no draw (RTZ never overflows, R144)
      if dyLe stepPast (m, e) then
        (if rnd = .rtz then f.maxBits neg else overflowBits f sat neg, st)
      else
        -- a magnitude above the largest finite one rounds at the top spacing, between L and the step past the range
        let s0 := split f.mbits f.qmin m e
        let s := if dyLt mx (m, e) then
            (let sh := (mx.2 - e).toNat; if e ≥ mx.2 then (⟨m <<< (e - mx.2).toNat, mx.2, 0, 0⟩ : Split)
              else ⟨m >>> sh, mx.2, m % 2 ^ sh, sh⟩) else s0
        let r := roundUnits rnd s false st
        if dyLt mx (r.1, s.q) then (overflowBits f sat neg, r.2)
        else (fencode f neg r.1 s.q, r.2)

/-- Converts an FP32 value to INT8: rounds to an integer and saturates (R144); NaN gives 0 (DEDUCED, log 104). -/
def narrowInt8 (rnd : Rnd) (v : FVal) (st : Nat) : Nat × Nat :=
  match v with
  | .nan => (0, st)
  | .inf neg => (if neg then 0x80 else 0x7F, st)
  | .fin neg m e =>
    let s : Split := if e ≥ 0 then ⟨m <<< e.toNat, 0, 0, 0⟩
      else ⟨m >>> (-e).toNat, 0, m % 2 ^ (-e).toNat, (-e).toNat⟩
    -- the largest magnitude is 127 above and 128 below 0; the step past it is one integer further (R147)
    let lim := if neg then 128 else 127
    if s.k ≥ lim + 1 then (if neg then 0x80 else 0x7F, st)
    else
      let r := roundUnits rnd s false st
      let k := min r.1 lim
      (if neg then (256 - k) % 256 else k, r.2)

/-- An exact widening of INT8 (R143). -/
def int8Val (v : Nat) : FVal := if v % 256 ≥ 128 then .fin true (256 - v % 256) 0 else .fin false (v % 256) 0

/-- The narrowing conversion a format code names. -/
def narrow (t : Narrow) (rnd : Rnd) (sat : Bool) (v : FVal) (st : Nat) : Nat × Nat :=
  match t with
  | .flt f => narrowFlt f rnd sat v st
  | .int8 => narrowInt8 rnd v st

/-- An accumulate-aperture or SCATTER_ADD addition into one element (R153): target and addend widened, one FP32 addition,
one rounding to the target's format. -/
def apertureAddBits (tf af : FFmt) (target addend : Nat) : Nat :=
  let sum := roundRne fp32 (fadd (fdecode tf target) (fdecode af addend))
  fbits tf (roundRne tf sum)

/-! ### MX blocks (R140, R145) -/

/-- The value of an E8M0 scale as a power of two, none for NaN (0xFF). -/
def e8m0 (x : Nat) : Option Int := if x = 0xFF then none else some ((x : Int) - 127)

/-- emax of R145 step 4 for an MX element format. -/
def mxEmax (f : Narrow) : Int :=
  match f with
  | .int8 => 0
  | .flt f => if f = e4m3 then 8 else if f = e5m2 then 15 else if f = e2m3 then 2
              else if f = e3m2 then 4 else 2

/-- floor(log2) of a finite nonzero magnitude. -/
def flog2 (m : Nat) (e : Int) : Int := (Nat.log2 m : Int) + e

/-- Rounds one scaled element of an MX block, always saturating (R145 step 5). -/
def mxElem (t : Narrow) (rnd : Rnd) (v : FVal) (st : Nat) : Nat × Nat :=
  match t with
  | .flt f => narrowFlt f rnd true v st
  | .int8 => narrowInt8 rnd (fscale v 6) st

/-- The values of R145 with infinities taken as the largest finite FP32 value of their sign when SAT is 1. -/
def mxSat (sat : Bool) (v : FVal) : FVal :=
  match v with
  | .inf n => if sat then .fin n fp32.maxFin.1 fp32.maxFin.2 else .inf n
  | v => v

/-- Converts 32 FP32 values to an MX block: the scale, the element bits and the lane state (R145). -/
def toMxBlock (t : Narrow) (rnd : Rnd) (sat : Bool) (vs : List FVal) (st : Nat) : Nat × List Nat × Nat :=
  let ws := vs.map (mxSat sat)
  if ws.any isNan || ws.any isInf then (0xFF, vs.map (fun _ => 0), st)
  else if ws.all isZero then (0, vs.map (fun _ => 0), st)
  else
    let exps := ws.filterMap (fun v => match v with
      | .fin _ m e => if m = 0 then none else some (flog2 m e)
      | _ => none)
    let mx := exps.foldl max (-1000)
    let scale : Int := max 0 (min 254 (mx - mxEmax t + 127))
    let r := ws.foldl (fun (acc : List Nat × Nat) v =>
      let x := mxElem t rnd (fscale v (127 - scale)) acc.2
      (acc.1 ++ [x.1], x.2)) ([], st)
    (scale.toNat, r.1, r.2)

end Sys2Proof.Machine
end

