-- ==== Sys2Proof/Machine/Places.lean ====
section
/-! DEFINITION. Where a block lies: homes and sets, ranks, banks and rows; the charges and the activations of an access (R21 to R23, R84, R242, R257, R258, R260, R266).
An address at or above 2^64 is the local mapping of a cavern-backed range of a partition (R89, DESIGN CHOICE, log 18); every other one is a module address. -/

namespace Sys2Proof.Machine

/-! ### Addresses -/

def lineBytes64 : Nat := 64
def pageBytes : Nat := 0x200000

/-- Address of offset `off` of entry `idx` of a partition's range list in the local mapping of a cavern-backed range (R89, DESIGN CHOICE, log 18). -/
def localKey (part idx off : Nat) : Nat := 2 ^ 64 * (part + 1) + 2 ^ 56 * idx + off

/-- Not a module address: the local mapping of a cavern-backed range. -/
def isLocal (a : Nat) : Bool := decide (2 ^ 64 ≤ a)

/-- The address that an offset of a range has at this module's tag pipelines. -/
def PbRange.addr (r : PbRange) (idx off : Nat) : Nat := if r.regionId = 0 then r.maBase + off else localKey r.part idx off

/-- The partition, range-list index and offset that a module address belongs to (R21). -/
def PromptBook.ownerOf (b : PromptBook) (ma : Nat) : Option (Nat × Nat × Nat × PbRange) :=
  b.partitions.findSome? (fun p =>
    let rs := b.rangesOf p.num
    ((List.range rs.length).zip rs).findSome? (fun x =>
      if x.2.regionId = 0 ∧ x.2.maBase ≤ ma ∧ ma < x.2.maBase + x.2.size then some (p.num, x.1, ma - x.2.maBase, x.2)
      else none))

/-- The partition an address belongs to; 255 for none. -/
def State.partOfAddr (s : State) (a : Nat) : Nat :=
  if isLocal a then a / 2 ^ 64 - 1 else ((s.pb.ownerOf a).map (·.1)).getD 0xFF

/-- Home region before any region has left service (R84). -/
def homeHash (a : Nat) : Nat := (bits a 14 12) ^^^ (bits a 17 15) ^^^ (bits a 20 18)

/-- The home region of an address: the first in service in the order of R84. -/
def State.home (s : State) (a : Nat) : Option Nat :=
  let h := homeHash a
  ([0, 1, 4, 5, 2, 3, 6, 7].map (h ^^^ ·)).find? s.regionOk

/-- Sets of a region: 48,768 MiB in sets of 64 KiB (R82, R84). -/
def setsPerRegion : Nat := 780288

/-- The set of an address within its home region (R84). -/
def setOf (a : Nat) : Nat := bits a 45 15 % setsPerRegion

/-- Home region and set of a block, when a region is in service and the set's pseudo-channel is (R84, R260, R285). -/
def State.placeOf (s : State) (blk : Nat) : Option (Nat × Nat) :=
  match s.home (blk * 4096) with
  | none => none
  | some r =>
    let t := setOf (blk * 4096)
    if s.pcOk (2 * r + t % 2) (t / 2 % 32) then some (r, t) else none

/-- Subchannel-rank of a block before any migration (R258). -/
def srHash (blk : Nat) : Nat := (bits blk 5 0) ^^^ (bits blk 11 6) ^^^ (bits blk 17 12)

/-- The rank that holds a block now (R284). -/
def State.rankOf (s : State) (blk : Nat) : Nat := (tabFind s.ras.remap blk).getD (srHash blk)

/-- Channel pair of a subchannel-rank (R258). -/
def pairOfRank (k : Nat) : Nat := 2 * bits k 5 4 + bits k 3 3

/-- The channel pair that owns a block: its merge buffer and its DEEP_BW point (R258). -/
def pairOfBlk (blk : Nat) : Nat := pairOfRank (srHash blk)

/-! ### The address map (R258) -/

/-- CID, BG, BA, ROW and COL of a user-visible module address (R258). -/
structure DramAddr where
  sr : Nat
  cid : Nat
  bg : Nat
  ba : Nat
  row : Nat
  col : Nat
deriving DecidableEq, Repr

def dramAddr (variant ma : Nat) : DramAddr :=
  let blk := bits ma 45 12
  let l := bits ma 11 6
  let q := bits ma 45 18
  let c := if variant = 2 then 2 else 3
  let p := q >>> c
  let row := bits p 22 6
  { sr := srHash blk, cid := q % 2 ^ c, bg := (bits l 2 0) ^^^ (bits row 2 0) ^^^ (bits row 5 3),
    ba := (bits l 4 3) ^^^ (bits row 7 6), row := row, col := 32 * (p % 64) + 16 * bits l 5 5 }

/-! ### Row trackers (R266, R267) -/

/-- Index of a bank in a pair's trackers: rank within the pair, logical rank, bank group and bank. -/
def bankKey (d : DramAddr) : Nat := ((d.sr % 8 * 8 + d.cid) * 8 + d.bg) * 4 + d.ba

/-- The vote of an entry after an activation (R266). -/
def TrkEnt.vote' (e : TrkEnt) (act : Nat) : TrkEnt :=
  if e.cand = act then { e with vote := e.vote + 1 }
  else if e.vote = 0 then { e with cand := act, vote := 1 }
  else { e with vote := e.vote - 1 }

/-- A tracker after an activation of a row by an activity (R266). -/
def trackRow (es : List TrkEnt) (row act : Nat) : List TrkEnt :=
  if es.any (fun e => e.row == row) then
    es.map (fun e => if e.row == row then { e.vote' act with count := e.count + 1 } else e)
  else if es.length < 16 then es ++ [{ row := row, count := 1, cand := act, vote := 1 }]
  else
    match es.foldl (fun (b : Option TrkEnt) e => match b with
        | none => some e
        | some x => if e.count < x.count then some e else b) none with
    | none => es
    | some low => es.filter (fun e => e.row != low.row) ++ [{ row := row, count := low.count + 1, cand := act, vote := 1 }]

/-- Counts the activation that a deep-tier access to a line makes (R266, DEDUCED, log 23). -/
def State.activateDeep (s : State) (line act : Nat) : State :=
  if isLocal (64 * line) then s
  else
    let d := dramAddr s.variant (64 * line)
    s.modCtl (.deep (pairOfRank d.sr)) (fun c => { c with
      trackers := tabMod [] c.trackers (bankKey d) (fun es => trackRow es d.row (trackAct act)) })

/-- Bank, as the trackers number it, and row of a sector of set `t` of a region (R260). -/
def nearRow (t k : Nat) : Nat × Nat :=
  let q := t / 64
  let r := q / 3
  ((t / 2 % 32 * 4 + q % 3) * 16 + ((k % 16) ^^^ (r % 16)), 4 * r + k / 64)

/-- Sector of its set that holds sector k of a resident block (R260). -/
def NearBlk.spot (t : NearBlk) (k : Nat) : Nat := t.spots[k]?.getD k

/-! ### What an access takes of a tier (R134, R242, R257) -/

/-- Charges DEEP_BW at the channel pair of a block (R242). -/
def State.chargeDeep (s : State) (blk act n : Nat) : State := s.charge clsDeep (pairOfBlk blk) act n

/-- Charges NEAR_BW at the stack that holds a block (R242). -/
def State.chargeNear (s : State) (blk act n : Nat) : State :=
  match s.placeOf blk with
  | some (r, t) => s.charge clsNear (2 * r + t % 2) act n
  | none => s

/-- `n` lines of a block from line i are read from or written to the deep tier: their bytes, and an activation of each bank they lie in, which two lines of one row
share (R242, R257, R258). -/
def State.useDeep (s : State) (blk i n act : Nat) : State :=
  if isLocal (4096 * blk) then s
  else (List.range (min 32 n)).foldl (fun s j => s.activateDeep (64 * blk + (i + j) % 64) act) (s.chargeDeep blk act (64 * n))

/-- `n` lines of a resident block from line i are read from or written to the near tier: their bytes, and an activation of each row that their sectors lie in (R242, R257,
R260). -/
def State.useNear (s : State) (blk i n act : Nat) : State :=
  match s.placeOf blk, s.mem.tags.find? (fun t => t.blk == blk) with
  | some (r, t), some b =>
    if n = 0 then s
    else
      let rows := ((List.range ((i + n - 1) / 4 - i / 4 + 1)).map (fun j => nearRow t (b.spot (i / 4 + j)))).eraseDups
      rows.foldl (fun s x => s.modCtl (.near (2 * r + t % 2)) (fun c => { c with
        trackers := tabMod [] c.trackers x.1 (fun es => trackRow es x.2 (trackAct act)) })) (s.charge clsNear (2 * r + t % 2) act (64 * n))
  | _, _ => s

end Sys2Proof.Machine
end

