-- ==== Sys2Proof/Machine/Lines.lean ====
section
/-! DEFINITION. Lines and blocks at the tag pipelines: homes and sets, the near tier, the merge buffers, poison marks, block forms and access counters (R21 to R27, R51, R84 to R91, R110, R111, R124, R129, R258, R279, R281, R395).
An address at or above 2^64 is the local mapping of a cavern-backed range of a partition (R89, DESIGN CHOICE, log 18); every other one is a module address. -/

namespace Sys2Proof.Machine

/-! ### Merge buffers (R281) -/

/-- The entries waiting in a pair's merge buffer and at the tag pipelines for it, oldest first. -/
def State.mergeQ (s : State) (pair : Nat) : List MergeEnt := tabGet [] s.mem.merge pair

/-- Bytes of `new` where the mask is set, of `old` elsewhere. -/
def mergeBytes (old new : Bytes) (mask : List Bool) : Bytes :=
  (List.range 64).map (fun i => if mask[i]?.getD false then new[i]?.getD 0 else old[i]?.getD 0)

/-- Adds the elements of a line to a target line, each with one FP32 addition and one rounding (R47, R153). -/
def addLine (tgtBf16 addBf16 : Bool) (old add : Bytes) : Bytes :=
  let tf := if tgtBf16 then bf16 else fp32
  let af := if addBf16 then bf16 else fp32
  let w := if tgtBf16 then 2 else 4
  let aw := if addBf16 then 2 else 4
  slice ((List.range (64 / w)).flatMap (fun i =>
    if aw * (i + 1) ≤ add.length then leBytes w (apertureAddBits tf af (leAt old (w * i) w) (leAt add (aw * i) aw))
    else slice old (w * i) w)) 0 64

/-- What an entry makes of a line and its poison mark (R47, R51, R281). -/
def MergeOp.apply (op : MergeOp) (v : Bytes × Bool) : Bytes × Bool :=
  match op with
  | .full d p => (slice d 0 64, p)
  | .part d m p => (mergeBytes v.1 d m, p || v.2)
  | .add t a d p => if p then (v.1, true) else (addLine t a v.1 d, v.2)
  | .added d m => (mergeBytes v.1 d m, v.2)
  | .writeBack d p => (slice d 0 64, p)
  | .rewrite => v

/-- The deep-tier value of a line. -/
def State.deepLine (s : State) (line : Nat) : Bytes × Bool :=
  (memBytes s.mem.deep (64 * line) 64, setHas s.mem.deepPoison line)

/-- The value of a line below the near tier: its deep-tier value with the entries held for it applied in order. -/
def State.lowLine (s : State) (line : Nat) : Bytes × Bool :=
  ((s.mergeQ (pairOfBlk (line / 64))).filter (fun e => e.line == line)).foldl (fun v e => e.op.apply v) (s.deepLine line)

/-- The valid-bit line of a block, 128 KiB of module addresses (R324, DESIGN CHOICE, log 27). -/
def validLine (blk : Nat) : Nat := blk / 32

/-- A block lies in a range erased at its pair whose sweep has not passed it and that has not listed its valid-bit line yet. -/
def Erased.waits (e : Erased) (blk : Nat) : Bool :=
  e.pair == pairOfBlk blk && decide (e.base ≤ 4096 * blk) && decide (4096 * blk < e.base + e.size) && decide (e.next ≤ validLine blk) &&
    !setHas e.cleared (validLine blk)

/-- An access brings the valid-bit line of a block into its pair's cache: in an erased range it joins the list of cleared lines (R324). -/
def State.eraseTouch (s : State) (blk : Nat) : State :=
  { s with mem := { s.mem with erased := s.mem.erased.map (fun e => if e.waits blk then { e with cleared := setAdd e.cleared (validLine blk) } else e) } }

/-- The list of a block's pair is full, and a fetch of its valid-bit line waits for the sweep (R324). -/
def State.eraseFull (s : State) (blk : Nat) : Bool :=
  s.mem.erased.any (fun e => e.waits blk) &&
    decide (4096 ≤ ((s.mem.erased.filter (fun e => e.pair == pairOfBlk blk)).map (fun e => e.cleared.length)).sum)

/-- Stores a line to the deep tier: its bytes, its mark, and its unit's valid bit (R279). -/
def State.putDeep (s : State) (line : Nat) (v : Bytes × Bool) : State :=
  let s := s.eraseTouch (line / 64)
  { s with mem := { s.mem with
      deep := memWrite s.mem.deep (64 * line) (slice v.1 0 64),
      deepPoison := setPut s.mem.deepPoison line v.2,
      valid := setAdd s.mem.valid (line / 4) } }

/-- Subchannel of a block's writes and reads, by 4 × channel pair + subchannel (R258). -/
def subOf (blk : Nat) : Nat := 4 * pairOfBlk blk + bits (srHash blk) 2 1

/-- Writes that wait for a subchannel. -/
def State.subWrites (s : State) (sub : Nat) : Nat := ((s.mergeQ (sub / 4)).filter (fun e => subOf (e.line / 64) == sub)).length

/-- Adds an entry to the merge buffer of its pair; a subchannel with 48 writes begins to drain them (R268). -/
def State.mergePush (s : State) (line : Nat) (op : MergeOp) (act : Nat) : State :=
  let blk := line / 64
  let s := { s with mem := { s.mem with
      merge := tabMod [] s.mem.merge (pairOfBlk blk) (fun q => q ++ [{ line := line, op := op, act := act }]) } }
  if s.subWrites (subOf blk) < 48 then s else { s with mem := { s.mem with draining := setAdd s.mem.draining (subOf blk) } }

/-- Writes have left the merge buffer: a subchannel with 16 or fewer stops draining (R268). -/
def State.endDrains (s : State) : State :=
  { s with mem := { s.mem with draining := s.mem.draining.filter (fun x => decide (16 < s.subWrites x)) } }

/-- The write of an entry needs a read of its line first (R281). -/
def MergeOp.reads : MergeOp → Bool
  | .part .. | .add .. | .added .. | .rewrite => true
  | .full .. | .writeBack .. => false

/-- Applies every entry held for a block's lines to the deep tier, in order, each write charged (R242). -/
def State.drainBlk (s : State) (blk : Nat) : State :=
  let p := pairOfBlk blk
  let q := s.mergeQ p
  let mine := q.filter (fun e => e.line / 64 == blk)
  if mine.isEmpty then s
  else
    let s := mine.foldl (fun s e => (s.putDeep e.line (e.op.apply (s.deepLine e.line))).useDeep blk (e.line % 64) (if e.op.reads then 2 else 1) e.act) s
    ({ s with mem := { s.mem with merge := tabSet s.mem.merge p (q.filter (fun e => e.line / 64 != blk)) } } : State).endDrains

/-- An aperture or SCATTER_ADD add to a block is held (R27). -/
def State.addHeld (s : State) (blk : Nat) : Bool :=
  (s.mergeQ (pairOfBlk blk)).any (fun e => e.line / 64 == blk && match e.op with | .add .. | .added .. => true | _ => false)

/-! ### The near tier (R84 to R86) -/

def State.nearFind (s : State) (blk : Nat) : Option NearBlk := s.mem.tags.find? (fun t => t.blk == blk)

/-- Drops a near-tier block without write-back. -/
def State.nearDel (s : State) (blk : Nat) : State :=
  { s with mem := { s.mem with
      tags := s.mem.tags.filter (fun t => t.blk != blk),
      near := memClear s.mem.near (4096 * blk) 4096,
      nearPoison := setClear s.mem.nearPoison (64 * blk) 64 } }

/-- Marks a block as most recently used, with a change to its tag. -/
def State.nearTouch (s : State) (blk : Nat) (f : NearBlk → NearBlk) : State :=
  match s.nearFind blk with
  | none => s
  | some t => { s with mem := { s.mem with tags := s.mem.tags.filter (fun x => x.blk != blk) ++ [f t] } }

/-- Changes a tag in its place in the order of use. -/
def State.nearMod (s : State) (blk : Nat) (f : NearBlk → NearBlk) : State :=
  { s with mem := { s.mem with tags := s.mem.tags.map (fun t => if t.blk == blk then f t else t) } }

/-- The value of a line of a near-tier block. -/
def State.nearLine (s : State) (line : Nat) : Bytes × Bool :=
  (memBytes s.mem.near (64 * line) 64, setHas s.mem.nearPoison line)

def State.putNear (s : State) (line : Nat) (v : Bytes × Bool) : State :=
  { s with mem := { s.mem with
      near := memWrite s.mem.near (64 * line) (slice v.1 0 64),
      nearPoison := setPut s.mem.nearPoison line v.2 } }

/-- The activity that a resident block's own traffic is charged to: its partition, or Coldon receive for a block of the cavern share (Table 11-2; the latter DEDUCED,
DESIGN CHOICE, log 106). -/
def State.ownerAct (s : State) (blk : Nat) : Nat :=
  match s.nearFind blk with
  | some t => if t.part < 64 then t.part else actColdon
  | none => actColdon

/-- Sends every line of a resident block to the merge buffer as a write-back, charged to the partition whose block it is, which is read from the near tier (R85, R242,
R281). -/
def State.writeBack (s : State) (blk : Nat) : State :=
  let act := s.ownerAct blk
  (List.range 64).foldl (fun s i =>
    let v := s.nearLine (64 * blk + i)
    s.mergePush (64 * blk + i) (.writeBack v.1 v.2) act) (s.useNear blk 0 64 act)

/-- Writes a resident block back when it is DIRTY, and drops it. -/
def State.evictBlk (s : State) (blk : Nat) : State :=
  match s.nearFind blk with
  | none => s
  | some t => (if t.st = .dirty then s.writeBack blk else s).nearDel blk

/-- Resident sectors of a partition (TIER_RESIDENT). -/
def State.resident (s : State) (part : Nat) : Nat :=
  ((s.mem.tags.filter (fun t => t.part == part)).map (·.sectors)).sum

/-- Pinned sectors of a partition (TIER_PINNED). -/
def State.pinnedOf (s : State) (part : Nat) : Nat :=
  ((s.mem.tags.filter (fun t => t.part == part && t.pinned)).map (·.sectors)).sum

def State.inSet (s : State) (pl : Nat × Nat) : List NearBlk :=
  s.mem.tags.filter (fun t => s.placeOf t.blk == some pl)

/-- Room for `sectors` beside the given blocks (R84): 24 tags and 256 sectors. -/
def roomFor (ts : List NearBlk) (sectors : Nat) : Bool :=
  decide (ts.length + 1 ≤ 24) && decide ((ts.map (·.sectors)).sum + sectors ≤ 256)

/-- A pin of `sectors` in the block's set meets both limits of R86. -/
def State.pinOk (s : State) (part blk sectors : Nat) : Bool :=
  match s.placeOf blk with
  | none => false
  | some pl =>
    decide (s.pinnedOf part + sectors ≤ ((s.pb.tier? part).map (·.pinLimit)).getD 0) &&
      decide (((s.inSet pl).filter (·.pinned) |>.map (·.sectors)).sum + sectors ≤ 128)

/-- The block R85 frees next in a set; an understudy takes only CLEAN and SPEC unpinned blocks of its own partition (R103) (DESIGN CHOICE, log 127). -/
def State.victim (s : State) (pl : Nat × Nat) (part : Nat) (own : Bool) : Option NearBlk :=
  let ts := s.inSet pl
  let free := ts.filter (fun t => !t.pinned && t.st != .dirty)
  if own then free.find? (fun t => t.part == part)
  else
    match free.find? (fun t => decide (((s.pb.tier? t.part).map (·.nearShare)).getD 0 < s.resident t.part)) with
    | some t => some t
    | none =>
      match free.head? with
      | some t => some t
      | none => ts.find? (fun t => !t.pinned)

/-- Frees blocks of a set in the order of R85 until `sectors` fit. -/
def State.makeRoom : Nat → State → (Nat × Nat) → (sectors part : Nat) → (own : Bool) → Option State
  | 0, _, _, _, _, _ => none
  | n + 1, s, pl, sectors, part, own =>
    if roomFor (s.inSet pl) sectors then some s
    else match s.victim pl part own with
      | none => none
      | some t => State.makeRoom n (s.evictBlk t.blk) pl sectors part own

/-- Whether R85 (or R103) can make room at all: beside the blocks it may not free. -/
def State.canRoom (s : State) (pl : Nat × Nat) (sectors part : Nat) (own : Bool) : Bool :=
  roomFor ((s.inSet pl).filter (fun t => t.pinned || (own && (t.part != part || t.st == .dirty)))) sectors

/-- Allocates a block in the near tier with the bytes and poisoned lines given, pinned when asked for and allowed (R85, R86), in the lowest free sectors of its set: which
sectors a block takes is the tag pipeline's choice (R260; DESIGN CHOICE, log 146).
None when its set has no room, is out of service, or an add to it is held (R27). -/
def State.nearAlloc (s : State) (blk part sectors : Nat) (st : NearSt) (pin own : Bool) (bs : Bytes) (poison : NSet) : Option State :=
  match s.placeOf blk with
  | none => none
  | some pl =>
    if s.addHeld blk || !s.canRoom pl sectors part own then none
    else match State.makeRoom 25 s pl sectors part own with
      | none => none
      | some s =>
        let ok := pin && s.pinOk part blk sectors
        let s := if pin && !ok then s.modPart part (fun x => { x with pinRefused := x.pinRefused + 1 }) else s
        let taken := (s.inSet pl).flatMap (fun t => (List.range t.sectors).map t.spot)
        some { s with mem := { s.mem with
          tags := s.mem.tags ++ [({
            blk := blk, part := part, st := st, pinned := ok, sectors := sectors, hit := false
            spots := ((List.range 256).filter (fun k => !taken.contains k)).take sectors } : NearBlk)],
          near := memWrite (memClear s.mem.near (4096 * blk) 4096) (4096 * blk) bs,
          nearPoison := setUnion (setClear s.mem.nearPoison (64 * blk) 64) poison } }

/-- A pin whose block finds no room in its set, or none in service, is refused and counted (R86). -/
def State.noRoom (s : State) (blk part : Nat) (pin : Bool) : State :=
  if pin && !s.addHeld blk then s.modPart part (fun x => { x with pinRefused := x.pinRefused + 1 }) else s

/-- Pins a resident block, or counts the refusal (R86). -/
def State.pinBlk (s : State) (blk : Nat) : State :=
  match s.nearFind blk with
  | none => s
  | some t =>
    if t.pinned || t.st = .spec then s
    else if s.pinOk t.part blk t.sectors then s.nearMod blk (fun t => { t with pinned := true })
    else s.modPart t.part (fun x => { x with pinRefused := x.pinRefused + 1 })

/-! ### Values at the tag pipelines -/

/-- The stored value of a line at its tag pipeline (R24). -/
def State.lineAt (s : State) (line : Nat) : Bytes × Bool :=
  match s.nearFind (line / 64) with
  | some _ => s.nearLine line
  | none => s.lowLine line

/-- The stored bytes of a block below the near tier. -/
def State.lowBlock (s : State) (blk : Nat) : Bytes :=
  if (s.mergeQ (pairOfBlk blk)).any (fun e => e.line / 64 == blk) then
    (List.range 64).flatMap (fun i => (s.lowLine (64 * blk + i)).1)
  else memBytes s.mem.deep (4096 * blk) 4096

/-- The poisoned lines of a block below the near tier. -/
def State.lowPoison (s : State) (blk : Nat) : NSet :=
  ((List.range 64).map (fun i => 64 * blk + i)).filter (fun l => (s.lowLine l).2)

/-- The poisoned lines of a block at its tag pipeline. -/
def State.poisonOf (s : State) (blk : Nat) : NSet :=
  match s.nearFind blk with
  | some _ => s.mem.nearPoison.filter (fun l => l / 64 == blk)
  | none => s.lowPoison blk

def State.ent? (s : State) (blk : Nat) : Option MapEnt := tabFind s.mem.bmap blk

/-- GEN and lengths of a slot that expanders decode with: LIVE or RETIRING (R121). -/
def State.slotTable (s : State) (n : Nat) : Option (Nat × List Nat) :=
  let g := s.slot n
  if g.st = 2 ∨ g.st = 3 then some (g.gen, g.lens) else none

/-- The local slot that holds a home module's table (R123). -/
def State.importSlot (s : State) (home slot gen : Nat) : Option Nat :=
  (s.gol.slots.find? (fun x => x.2.imp && x.2.home == home && x.2.homeSlot == slot && x.2.homeGen == gen && x.2.st != 0)).map (·.1)

/-- The table of a block: a local slot's, or for the local mapping of a cavern range the imported table of its home module (R123). -/
def State.tableFor (s : State) (blk : Nat) (e : MapEnt) : Option (Nat × List Nat) :=
  if isLocal (4096 * blk) then
    let part := 4096 * blk / 2 ^ 64 - 1
    let idx := (4096 * blk) % 2 ^ 64 / 2 ^ 56
    match (s.pb.range? part idx).bind (fun r => s.pb.region? r.regionId) with
    | none => none
    | some g =>
      let home := ((s.region g.rid).homeNow).getD g.home
      if home = s.pb.moduleId then s.slotTable e.slot
      else ((s.importSlot home e.slot e.gen).bind s.slotTable).map (fun t => (e.gen, t.2))
  else s.slotTable e.slot

/-- Counts the LEGACY decodes of sealing engines (GOL_LEGACY_BLOCKS). -/
def State.countLegacy (s : State) : State := { s with gol := { s.gol with legacy := s.gol.legacy + 1 } }

/-- The plain 4,096 bytes of a block at its tag pipeline, or why it does not expand (R110, R127, R129). -/
def State.plainBlock (s : State) (blk : Nat) : Except Damage Bytes :=
  match s.ent? blk with
  | none =>
    match s.nearFind blk with
    | some _ => .ok (memBytes s.mem.near (4096 * blk) 4096)
    | none => .ok (s.lowBlock blk)
  | some e =>
    match s.nearFind blk with
    | some _ =>
      let e := if e.mode = modeLegacy then { e with mode := modeRaw } else e
      expandForm e (s.tableFor blk e) (memBytes s.mem.near (4096 * blk) 4096)
    | none => expandForm e (s.tableFor blk e) (s.lowBlock blk)

/-- What a line of a block that does not expand delivers, always with poison (R51, DESIGN CHOICE, log 14). -/
def deadLine (line : Nat) : Bytes := (List.range 64).map (fun i => Config.deadByte (64 * line + i))

/-- Counts a damaged block (Table 5-6). -/
def State.countDamage (s : State) (d : Damage) : State :=
  match d with
  | .stale => { s with gol := { s.gol with stale := s.gol.stale + 1 } }
  | .damaged => { s with gol := { s.gol with damaged := s.gol.damaged + 1 } }

/-- Sectors a block occupies above the deep tier (R111, R129). -/
def sectorsAbove (e : Option MapEnt) : Nat :=
  match e with
  | none => 16
  | some e => if e.mode = modeLegacy then 16 else e.sectors

/-- Bytes of a block's form above the deep tier: as stored, LEGACY decoded (R28, R129). None when a LEGACY block does not decode. -/
def State.aboveBytes (s : State) (blk : Nat) : Except Damage Bytes :=
  match s.ent? blk with
  | some e =>
    if e.mode = modeLegacy then expandForm e none (s.lowBlock blk) else .ok (slice (s.lowBlock blk) 0 (256 * e.sectors))
  | none => .ok (s.lowBlock blk)

/-- Fills a block that has been read from the deep tier into the near tier, in the form it has (R28, R101). None when it has no room. -/
def State.nearFill (s : State) (blk part : Nat) (st : NearSt) (pin own : Bool) : Option State :=
  match s.aboveBytes blk with
  | .error _ => none
  | .ok bs =>
    s.nearAlloc blk part (sectorsAbove (s.ent? blk)) st pin own bs (s.lowPoison blk)

/-! ### Poison marks (R51, R279) -/

/-- Sets the mark of a line where its value is held: the near copy and the deep tier's mark. `src` 0 Internal, 1 External, 2 Injected. -/
def State.setPoison (s : State) (line src : Nat) : State :=
  let s := if isLocal (64 * line) then s else s.drainBlk (line / 64)
  let s := if (s.nearFind (line / 64)).isSome then
      { s with mem := { s.mem with nearPoison := setAdd s.mem.nearPoison line } } else s
  let s := { s with mem := { s.mem with
      deepPoison := if isLocal (64 * line) then s.mem.deepPoison else setAdd s.mem.deepPoison line,
      poisonSrc := tabSet s.mem.poisonSrc line src } }
  if src = 0 then { s with ras := { s.ras with poisoned := s.ras.poisoned + 1 } } else s

/-- Clears the mark of a line wherever it is held. -/
def State.clearPoisonMark (s : State) (line : Nat) : State :=
  { s with mem := { s.mem with
      nearPoison := setDel s.mem.nearPoison line,
      deepPoison := setDel s.mem.deepPoison line,
      poisonSrc := tabDel s.mem.poisonSrc line } }

/-- Clears the valid bits of the 256-byte units from address `base`, with their contents and poison marks (R279). -/
def State.clearValid (s : State) (base n : Nat) : State :=
  { s with mem := { s.mem with
      deep := memClear s.mem.deep base n,
      deepPoison := setClear s.mem.deepPoison (base / 64) (n / 64),
      poisonSrc := s.mem.poisonSrc.filter (fun e => decide (e.1 < base / 64) || decide (base / 64 + n / 64 ≤ e.1)),
      valid := setClear s.mem.valid (base / 256) (n / 256),
      merge := s.mem.merge.map (fun x => (x.1, x.2.filter (fun e => decide (64 * e.line < base) || decide (base + n ≤ 64 * e.line)))) } }

/-! ### Hints and access counters (R87, R91) -/

/-- Standing hint of an address's page (R87): the page's own, or the range's default. -/
def State.hintAt (s : State) (r : PbRange) (idx off : Nat) : Nat :=
  (tabFind (s.part r.part).pageHint (r.addr idx off / pageBytes)).getD r.hint

/-- Counts `n` read accesses of a page of the user-visible deep tier, saturating (R91). -/
def State.countRd (s : State) (a n : Nat) : State :=
  if isLocal a then s else { s with mem := { s.mem with rdCnt := tabMod 0 s.mem.rdCnt (a / pageBytes) (satAdd 0xFFFF n) } }

/-- Counts `n` write accesses (R91). -/
def State.countWr (s : State) (a n : Nat) : State :=
  if isLocal a then s else { s with mem := { s.mem with wrCnt := tabMod 0 s.mem.wrCnt (a / pageBytes) (satAdd 0xFFFF n) } }

/-! ### Stores (chapter 1, Host store; Table 4-1) -/

/-- An access that changes a line reaches the tag pipeline: reads of the line that arrived before it, and whose data has not returned, keep the value
they found (R24). -/
def State.keepReads (s : State) (line : Nat) : State :=
  if s.host.reqs.any (fun r => r.line == line && r.wait == .deep && r.val.isNone) then
    let v := s.lineAt line
    { s with host := { s.host with reqs := s.host.reqs.map (fun r =>
        if r.line == line && r.wait == .deep && r.val.isNone then { r with val := some v } else r) } }
  else s

/-- A write to a block leaves no older copy of it in a cue area, so that no operation reads a value that R24 orders before the write (DESIGN CHOICE, log 107). -/
def State.dropCue (s : State) (blk : Nat) : State :=
  if s.mem.cueArea.any (fun c => c.blk == blk) then { s with mem := { s.mem with cueArea := s.mem.cueArea.filter (fun c => c.blk != blk) } } else s

/-- A store to a line of an unsealed block at its tag pipeline: into the resident slab, into a block it allocates, or to the merge buffer, with what it takes of the tiers.
`hint` is the page's hint, `act` the activity charged. -/
def State.storeLine (s : State) (part hint line : Nat) (op : MergeOp) (act : Nat) : State :=
  let blk := line / 64
  let s := (s.keepReads line).dropCue blk
  match s.nearFind blk with
  | some _ =>
    ((s.putNear line (op.apply (s.nearLine line))).nearTouch blk (fun t => { t with st := .dirty, hit := true })).useNear blk (line % 64) 1 act
  | none =>
    if hint = 0 ∨ hint = 1 then
      match s.nearAlloc blk part 16 .dirty (hint == 1) false (s.lowBlock blk) (s.lowPoison blk) with
      | some s =>
        -- the rest of the block is read from the deep tier and written to its slab (Table 4-1)
        let s := (s.useDeep blk 0 64 act).useNear blk 0 64 act
        (s.putNear line (op.apply (s.nearLine line))).nearTouch blk (fun t => { t with hit := true })
      | none => (s.noRoom blk part (hint == 1)).mergePush line op act
    else s.mergePush line op act

/-- An add to a line: any near-tier copy of its slab is recalled first, then the add goes to the merge buffer (R27). -/
def State.addToLine (s : State) (line : Nat) (tgtBf16 addBf16 : Bool) (d : Bytes) (poison : Bool) (act : Nat) : State :=
  (((s.keepReads line).dropCue (line / 64)).evictBlk (line / 64)).mergePush line (.add tgtBf16 addBf16 d poison) act

/-! ### Replacing the form of a block (R111, R124, R395) -/

/-- The expander that serves a port: its own, or its paired port's when that is out of service (R126, Table 1-2). -/
def State.expander (s : State) (port : Nat) : Nat :=
  if s.isFailed (.egressExpander port) then (if port % 2 = 0 then port + 1 else port - 1) else port

/-- Requests whose coded block is in an egress expander or queued for it, in the form the block has now. -/
def State.expandReqs (s : State) (blk : Nat) : List HostReq :=
  s.host.reqs.filter (fun r => r.line / 64 == blk && r.wait == .expand && !s.mem.expanding.any (fun x => x.reqs.contains r.id))

/-- A block about to be replaced: what is inside an expander, or queued for it, keeps its old form and is expanded with the old table (R122). -/
def State.keepExpands (s : State) (blk : Nat) : State :=
  let rs := (s.expandReqs blk).map (·.id)
  match s.ent? blk with
  | some e =>
    if rs.isEmpty then s
    else match s.aboveBytes blk with
      | .ok bs => { s with mem := { s.mem with expanding := s.mem.expanding ++ [{
          blk := blk, ent := e, marks := s.poisonOf blk, reqs := rs
          bytes := if (s.nearFind blk).isSome then memBytes s.mem.near (4096 * blk) (256 * e.sectors) else bs }] } }
      | .error _ => s
  | none => s

/-- Drops the expanded copies of a block in the staging SRAM and its cue-area copies (R124). -/
def State.dropCopies (s : State) (blk : Nat) : State :=
  { s with mem := { s.mem with
      staging := s.mem.staging.map (fun x => (x.1, x.2.filter (fun e => e.1 != blk))),
      cueArea := s.mem.cueArea.filter (fun c => c.blk != blk) } }

/-- Replaces the stored form of a block: deep bytes with a replica when asked for and possible, map entry when `keepMap`, near-tier copy, and poison marks.
A ZERO block, which has no sector to copy, gets no replica and REPLICA 0 (DESIGN CHOICE, log 138). The spec does not say what state and recency a replaced
near-tier copy has: it is CLEAN, also when it was SPEC, and most recently used (DESIGN CHOICE, log 141). -/
def State.replaceBlock (s : State) (blk : Nat) (f : Form) (replica : Bool) (keepMap : Bool) (poison : NSet) (propagated : Bool) : State :=
  let s := ((s.keepExpands blk).drainBlk blk).dropCopies blk
  let s := { s with ras := { s.ras with gone := tabDel s.ras.gone blk } }
  let coded := f.ent.mode = modeGolas ∨ f.ent.mode = modeLegacy
  let rep := replica && decide (f.ent.sectors ≤ 8) && decide coded
  let n := f.ent.sectors
  let base := 4096 * blk
  let deep := if n = 0 then s.mem.deep else memWrite s.mem.deep base (slice f.bytes 0 (256 * n))
  let deep := if rep then memWrite deep (base + 256 * (16 - n)) (slice f.bytes 0 (256 * n)) else deep
  let units := (List.range 16).filter (fun k => decide (k < n) || (rep && decide (16 - n ≤ k)))
  let ent := { f.ent with replica := rep, propagated := propagated }
  let s := { s with mem := { s.mem with
      deep := deep,
      valid := units.foldl (fun v k => setAdd v (16 * blk + k)) s.mem.valid,
      deepPoison := setUnion (setClear s.mem.deepPoison (64 * blk) 64) poison,
      poisonSrc := s.mem.poisonSrc.filter (fun e => e.1 / 64 != blk || setHas poison e.1),
      bmap := if keepMap then tabSet s.mem.bmap blk ent else tabDel s.mem.bmap blk } }
  match s.nearFind blk with
  | none => s
  | some t =>
    let sec := if f.ent.mode = modeLegacy then 16 else n
    let bs := if f.ent.mode = modeLegacy then
        (match expandForm f.ent none f.bytes with
          | .ok b => b
          | .error _ => slice f.bytes 0 (256 * sec))
      else slice f.bytes 0 (256 * sec)
    let s := s.nearDel blk
    match s.nearAlloc blk t.part sec .clean t.pinned false bs poison with
    | some s => s.nearMod blk (fun x => { x with hit := t.hit })
    | none => s.noRoom blk t.part t.pinned

/-! ### Golas slots (R121) -/

/-- A coded block of a map entry names local slot n: of the local mapping of a cavern range, through the imported table (R123). -/
def State.namesSlot (s : State) (blk n : Nat) (e : MapEnt) : Bool :=
  e.mode == modeGolas &&
    (if isLocal (4096 * blk) then
      match (s.pb.range? (4096 * blk / 2 ^ 64 - 1) ((4096 * blk) % 2 ^ 64 / 2 ^ 56)).bind (fun r => s.pb.region? r.regionId) with
      | some g =>
        let home := ((s.region g.rid).homeNow).getD g.home
        if home = s.pb.moduleId then e.slot == n else s.importSlot home e.slot e.gen == some n
      | none => false
    else e.slot == n)

/-- Coded copies that name a slot outside the deep tier and the cavern: near-tier blocks, cue-area copies, blocks in egress expanders or queued for them,
one for each expander, and blocks that wait for their table (INFLIGHT, R121, R123). -/
def State.inflight (s : State) (n : Nat) : Nat :=
  let names := fun blk => (s.ent? blk).any (s.namesSlot blk n)
  let exps := (s.host.reqs.filter (fun r => (s.expandReqs (r.line / 64)).any (fun x => x.id == r.id) && names (r.line / 64))).map
    (fun r => (s.expander r.port, r.line / 64))
  (s.mem.tags.filter (fun t => names t.blk)).length + (s.mem.cueArea.filter (fun c => names c.blk)).length + exps.eraseDups.length +
    (s.mem.expanding.filter (fun x => s.namesSlot x.blk n x.ent)).length

/-- A group of a sealed range names the slot (NAMED). -/
def State.named (s : State) (n : Nat) : Bool :=
  s.gol.sealedRanges.any (fun r => r.groups.any (fun g => g.cur == some n || g.old.contains n))

/-- Ends the HMESH cycle for the slots: a LIVE slot that nothing names, or whose home module dropped it, leaves LIVE, and a RETIRING slot whose
INFLIGHT is 0 becomes FREE (R121). Importers count toward the INFLIGHT of the home module's slot (R216). -/
def State.settleSlots (s : State) : State :=
  { s with gol := { s.gol with slots := s.gol.slots.map (fun x =>
      let g := x.2
      let n := s.inflight x.1 + g.importers.length
      let held := if g.imp then !g.dropped else s.named x.1
      if (g.st = 2 ∧ !held) ∨ g.st = 3 then
        (x.1, if n = 0 then { g with st := 0, owner := 0, lens := [], imp := false, dropped := false } else { g with st := 3 })
      else x) } }

/-- The sealed range of a range-list entry. -/
def State.sealed? (s : State) (part idx : Nat) : Option SealedRange :=
  s.gol.sealedRanges.find? (fun r => r.part == part && r.range == idx)

def State.isSealed (s : State) (part idx : Nat) : Bool := (s.sealed? part idx).isSome

/-- Removes a sealed range with its block-map entries: it becomes an unsealed range whose groups let go of their slots (R60, R121, R133). -/
def State.unsealRange (s : State) (part idx : Nat) : State :=
  match s.pb.range? part idx with
  | none => s
  | some r =>
    let b := r.addr idx 0 / 4096
    let n := r.size / 4096
    { s with
      gol := { s.gol with sealedRanges := s.gol.sealedRanges.filter (fun x => !(x.part == part && x.range == idx)) },
      mem := { s.mem with bmap := s.mem.bmap.filter (fun e => decide (e.1 < b) || decide (b + n ≤ e.1)) } }

end Sys2Proof.Machine
end

