-- ==== Sys2Proof/Machine/RasOps.lean ====
section
/-! DEFINITION. DRAM codes, poison, retirement and the opening of recoveries (R276 to R289, Table 13-5). -/

namespace Sys2Proof.Machine

/-! ### RAS records (Table 13-5, R289) -/

/-- A RAS record. -/
structure RasRec where
  event : Nat
  sev : Nat
  level : Nat
  source : Nat := 0
  part : Nat := 0xFF
  device : Nat := 0xFF
  loc : Nat := 0
  count : Nat := 1
  addr : Nat := 0
deriving DecidableEq, Repr

def RasRec.bytes (r : RasRec) : Bytes :=
  leBytes 1 r.event ++ leBytes 1 (fld r.sev 2 6 + fld r.level 3 3 + fld r.source 3 0) ++ leBytes 1 r.part ++ leBytes 1 r.device ++
    leBytes 2 r.loc ++ leBytes 2 (min r.count 0xFFFF) ++ leBytes 8 r.addr

/-- Writes a RAS event to the callboard (R289, R348). -/
def State.logRas (s : State) (r : RasRec) : State := s.logRec (.ras r.event r.sev) r.part 0 0 0 r.bytes

/-- LOC of a deep-tier place: CID (R258) and SR. -/
def State.deepLoc (s : State) (blk : Nat) : Nat :=
  let q := blk * 4096 / 2 ^ 18
  fld (q % (if s.variant = 2 then 4 else 8)) 3 6 + s.rankOf blk

/-- LOC of a near-tier place. -/
def nearLoc (stack pc : Nat) : Nat := 0x8000 + fld pc 5 4 + stack

/-- Writes a correctable-error event at most once per MGMT second and place, with the number since the last entry (R289). -/
def State.logCe (s : State) (key : Nat) (r : RasRec) : State :=
  let n := tabGet 0 s.ras.cePend key + 1
  let quiet := match tabFind s.ras.ceSec key with
    | some a => decide (s.clk.mgmt < a + mgmtHz)
    | none => false
  if quiet then { s with ras := { s.ras with cePend := tabSet s.ras.cePend key n } }
  else ({ s with ras := { s.ras with cePend := tabSet s.ras.cePend key 0, ceSec := tabSet s.ras.ceSec key s.clk.mgmt } }).logRas { r with count := n }

/-- Counts corrected errors on the lines of a partition (Table 2-7), and raises the alert of each of its LDs whose threshold the count reaches. -/
def State.countCe (s : State) (p n : Nat) : State :=
  let old := (s.part p).ceCount
  let s := s.modPart p (fun x => { x with ceCount := x.ceCount + n })
  (s.pb.ldsOf p).foldl (fun s i => match (s.ld i).alertCe with
    | some c => if old < c ∧ c ≤ old + n then s.alert i true ((old + n : Nat) : Int) else s
    | none => s) s

/-! ### GF(2^8) and the RS(10,8) decoder (R276, R277) -/

/-- Multiplies by α in GF(2^8) with x^8 + x^4 + x^3 + x^2 + 1. -/
def gfX (a : Nat) : Nat := if a < 128 then 2 * a else (2 * a % 256) ^^^ 0x1D

/-- Product of `a` with the polynomial whose low `n` bits are those of `b`. -/
def gfMulGo : Nat → Nat → Nat → Nat
  | 0, _, _ => 0
  | n + 1, a, b => (if b % 2 = 1 then a else 0) ^^^ gfMulGo n (gfX a) (b / 2)

def gfMul (a b : Nat) : Nat := gfMulGo 8 a b

/-- α^n. -/
def gfPow : Nat → Nat
  | 0 => 1
  | n + 1 => gfX (gfPow n)

/-- Power of x whose coefficient a device's symbol is (R276). -/
def devPos (d : Nat) : Nat := 9 - d

/-- What a decode of one codeword gives. -/
inductive CwOut where
  | clean
  /-- Corrected, with the devices whose symbols were wrong. -/
  | fixed (devs : List Nat)
  | uncorrectable
  /-- One device is marked and a further error is detected: the locate step runs. -/
  | locate
  /-- More errors than the code is bound to detect: the codeword delivered is another one than the stored (R277). -/
  | wrong
deriving DecidableEq, Repr

/-- Decodes a codeword from its error pattern, a list of (device, error value), under the rank's marks (R277). -/
def decodeCw (marks : List Nat) (es : List (Nat × Nat)) : CwOut :=
  let es := es.filter (fun e => e.2 % 256 != 0 && decide (e.1 < 10))
  let devs := es.map (·.1)
  match marks with
  | [] =>
    if es.isEmpty then .clean
    else
      let s0 := es.foldl (fun a e => a ^^^ (e.2 % 256)) 0
      let s1 := es.foldl (fun a e => a ^^^ gfMul (e.2 % 256) (gfPow (devPos e.1))) 0
      match (List.range 10).find? (fun d => gfMul s0 (gfPow (devPos d)) == s1 && s0 != 0) with
      | some _ => if es.length = 1 then .fixed devs else .wrong
      | none => if s0 = 0 ∧ s1 = 0 then .wrong else .uncorrectable
  | [m] =>
    let t := es.foldl (fun a e => if e.1 = m then a else a ^^^ gfMul (e.2 % 256) (gfPow (devPos e.1) ^^^ gfPow (devPos m))) 0
    if t ≠ 0 then .locate
    else if es.isEmpty then .clean
    else if devs.all (· == m) then .fixed devs else .wrong
  | ms =>
    if es.isEmpty then .clean
    else if devs.all (fun d => ms.contains d) then .fixed devs else .wrong

/-- What the decode of a line gives. -/
inductive LineOut where
  | good (devs : List Nat)
  | uncorrectable
  | locate
  | wrong
deriving DecidableEq, Repr

/-- Joins the outcomes of a line's eight codewords. -/
def joinOut (outs : List CwOut) : LineOut :=
  if outs.contains .uncorrectable then .uncorrectable
  else if outs.contains .locate then .locate
  else if outs.contains .wrong then .wrong
  else .good ((outs.flatMap (fun o => match o with | .fixed d => d | _ => [])).eraseDups)

/-- Error values of one device in one codeword add. -/
def symOf (errs : List SymErr) (line cw dev : Nat) : Nat :=
  (errs.filter (fun e => e.line == line && e.cw == cw && e.dev == dev)).foldl (fun a e => a ^^^ (e.val % 256)) 0

/-- Decodes line `i` of a read. -/
def decodeLine (marks : List Nat) (errs : List SymErr) (i : Nat) : LineOut :=
  joinOut ((List.range 8).map (fun cw => decodeCw marks ((List.range 10).map (fun d => (d, symOf errs i cw d)))))

/-- What the decoder adds to a codeword to make it one: at the device whose symbol the syndromes point to, or at the marked devices (R276, R277). -/
def cwFix (marks : List Nat) (es : List (Nat × Nat)) : List (Nat × Nat) :=
  let s0 := es.foldl (fun a e => a ^^^ (e.2 % 256)) 0
  let s1 := es.foldl (fun a e => a ^^^ gfMul (e.2 % 256) (gfPow (devPos e.1))) 0
  match marks with
  | [] =>
    match (List.range 10).find? (fun d => gfMul s0 (gfPow (devPos d)) == s1 && s0 != 0) with
    | some d => [(d, s0)]
    | none => []
  | [m] => [(m, s0)]
  | m :: n :: _ =>
    let a := gfPow (devPos m)
    let b := gfPow (devPos n)
    -- the reciprocal of a field element is its 254th power
    let x := gfMul (s1 ^^^ gfMul s0 b) ((List.range 254).foldl (fun y _ => gfMul y (a ^^^ b)) 1)
    [(m, x), (n, s0 ^^^ x)]

/-- How the line delivered differs from the stored one once its eight codewords have been decoded: device d holds bits [4d+3:4d] of each beat of four bytes, and its symbol of
codeword j beats 2j and 2j + 1 (R276). -/
def lineDiff (marks : List Nat) (errs : List SymErr) (i : Nat) : Bytes :=
  let sym := fun (cw : Nat) =>
    let es := (List.range 10).map (fun d => (d, symOf errs i cw d))
    let fix := cwFix marks (es.filter (fun e => e.2 != 0))
    fun d => symOf errs i cw d ^^^ (fix.filter (fun x => x.1 == d)).foldl (fun a x => a ^^^ x.2) 0
  (List.range 64).map (fun b =>
    let nib := fun d => if b / 4 % 2 = 0 then sym (b / 8) d % 16 else sym (b / 8) d / 16
    BitVec.ofNat 8 (nib (2 * (b % 4)) + 16 * nib (2 * (b % 4) + 1)))

/-! ### The XTS form (R25, R320, R321) -/

/-- The key of a line of the deep tier: its partition's, the cavern key for the contributed share, the metadata key for what no partition holds (R320). -/
def State.xtsKey (s : State) (line : Nat) : Bytes :=
  match s.pb.ownerOf (64 * line) with
  | some (p, _) => tabGet [] s.sec.partKey p
  | none => if s.shareBase ≤ 64 * line ∧ 64 * line < s.deepUser then s.sec.cavKey else s.sec.metaKey

/-- What DRAM holds for the plain bytes of a line: XTS blocks 4 × (line within sector) to + 3 of its 256-byte unit, whose tweak is bits [45:8] of the sector's module address, the
one before any spare remap (R321). XTS is one to one under a key and a tweak; the model keeps the plain bytes, and this form where DRAM's symbols matter (DESIGN CHOICE, log 8). -/
def State.toDram (s : State) (line : Nat) (plain : Bytes) : Bytes := xts false (s.xtsKey line) (leBytes 16 (line / 4)) (4 * (line % 4)) plain

/-- The plain bytes of what DRAM delivers for a line (R25, R321). -/
def State.ofDram (s : State) (line : Nat) (cipher : Bytes) : Bytes := xts true (s.xtsKey line) (leBytes 16 (line / 4)) (4 * (line % 4)) cipher

/-- The marks of a rank (Table 13-8). -/
def Rank.marks (r : Rank) : List Nat := [r.mark1, r.mark2].filter (· != 15)

/-! ### GF(2^16) and the RS(18,16) decoder (R278) -/

/-- Multiplies by α in GF(2^16) with x^16 + x^12 + x^3 + x + 1. -/
def gf16X (a : Nat) : Nat := if a < 32768 then 2 * a else (2 * a % 65536) ^^^ 0x100B

/-- a × α^n. -/
def gf16Shift (a : Nat) : Nat → Nat
  | 0 => a
  | n + 1 => gf16X (gf16Shift a n)

/-- Error values of one symbol of a near-tier burst add. -/
def nearSym (errs : List SymErr) (line burst i : Nat) : Nat :=
  (errs.filter (fun e => e.line == line && e.cw == burst && e.dev == i)).foldl (fun a e => a ^^^ (e.val % 65536)) 0

/-- What the decoder adds to a near-tier burst, when the syndromes point to a symbol, and the outcome: data symbol i is the coefficient of x^(17−i). -/
def nearFix (errs : List SymErr) (line burst : Nat) : Option (Nat × Nat) × CwOut :=
  let es := ((List.range 18).map (fun i => (i, nearSym errs line burst i))).filter (fun e => e.2 != 0)
  let s0 := es.foldl (fun a e => a ^^^ e.2) 0
  let s1 := es.foldl (fun a e => a ^^^ gf16Shift e.2 (17 - e.1)) 0
  if es.isEmpty then (none, .clean)
  else if s0 = 0 ∧ s1 = 0 then (none, .wrong)
  else match (List.range 18).find? (fun i => gf16Shift s0 (17 - i) == s1 && s0 != 0) with
    | some i => (some (i, s0), if es.length = 1 then .fixed [i] else .wrong)
    | none => (none, .uncorrectable)

/-- Outcome of a near-tier burst: corrects one symbol, detects two (R278). -/
def nearBurst (errs : List SymErr) (line burst : Nat) : CwOut := (nearFix errs line burst).2

/-- How a near-tier line delivered differs from the stored one once its two bursts have been decoded. -/
def nearDiff (errs : List SymErr) (line : Nat) : Bytes :=
  [0, 1].flatMap (fun b =>
    let fix := (nearFix errs line b).1
    (List.range 16).flatMap (fun i => leBytes 2 (nearSym errs line b i ^^^ (match fix with
      | some f => if f.1 = i then f.2 else 0
      | none => 0))))

/-! ### Retirement (R283 to R285) -/

/-- Starts the retirement of a rank, or records that no spare room is left (R284). -/
def State.startRetire (s : State) (k : Nat) : State :=
  if 3 ≤ s.ras.spareUsed then
    ({ s.modRank k (fun r => { r with st := 5 }) with ras := { (s.modRank k (fun r => { r with st := 5 })).ras with spareExh := true } }).logRas
      { event := 0x06, sev := 1, level := 4, loc := k }
  else
    let s := s.modRank k (fun r => { r with st := 3 })
    let s := { s with ras := { s.ras with migrating := some (k, 0), spareUsed := s.ras.spareUsed + 1 } }
    (s.logRas { event := 0x04, sev := 1, level := 0, loc := k }).derate [1]

/-- Retires a rank; a retirement that finds a migration running waits for it (R284). -/
def State.retireRank (s : State) (k : Nat) : State :=
  let st := (s.rank k).st
  if st = 3 ∨ st = 4 ∨ st = 5 ∨ s.ras.retireq.contains k then s
  else if s.ras.migrating.isSome then { s with ras := { s.ras with retireq := s.ras.retireq ++ [k] } }
  else s.startRetire k

/-- Retires a pseudo-channel; `bad` are the lines that cannot be read (R285). -/
def State.retirePc (s : State) (stack pc : Nat) (bad : List Nat) : State :=
  if !s.pcOk stack pc then s
  else
    let mine := s.mem.tags.filter (fun t => match s.placeOf t.blk with
      | some (r, st) => 2 * r + st % 2 == stack && st / 2 % 32 == pc
      | none => false)
    let s := mine.foldl (fun s t =>
      let act := s.ownerAct t.blk
      if t.st = .dirty then
        ((List.range 64).foldl (fun s i =>
          let l := 64 * t.blk + i
          if bad.contains l then
            let s := s.mergePush l (.writeBack (s.lowLine l).1 true) act
            { s with ras := { s.ras with poisoned := s.ras.poisoned + 1 } }
          else s.mergePush l (.writeBack (s.nearLine l).1 (s.nearLine l).2) act) (s.useNear t.blk 0 64 act)).nearDel t.blk
      else s.nearDel t.blk) s
    let s := s.modCtl (.near stack) (fun c => { c with out := setAdd c.out pc })
    let sev := if mine.any (fun t => t.st == .dirty && bad.any (fun l => l / 64 == t.blk)) then 2 else 1
    (s.logRas { event := 0x0A, sev := sev, level := 0, loc := nearLoc stack pc }).derate [0]

/-! ### Recovery (R286) -/

/-- Opens the recovery of a sealed block, once; its 64 lines are poisoned while it runs (R286). -/
def State.openRecovery (s : State) (blk : Nat) (above stale : Bool) : State :=
  if s.ras.recov.any (fun r => r.block == blk) then s
  else
    let before := s.poisonOf blk
    let s := if isLocal (4096 * blk) then s else s.drainBlk blk
    let s := if above then (s.nearDel blk).dropCopies blk else s
    let lines := (List.range 64).map (fun i => 64 * blk + i)
    let s := lines.foldl (fun s l => if setHas before l then s else s.setPoison l 0) s
    { s with ras := { s.ras with recov := s.ras.recov ++ [{ block := blk, since := s.clk.hmesh, above := above, stale := stale, before := before }] } }

/-- A block belongs to a sealed range: it has a block-map entry (R110). -/
def State.blkSealed (s : State) (blk : Nat) : Bool := (s.ent? blk).isSome

/-- A damaged block met by an expander or an engine: counted, and sent to recovery (R127, R128). `above`: the copy read lies above the deep tier. No line of it failed
its code: it does not count in RAS_UE_DEEP and retires no rank (DESIGN CHOICE, log 142). -/
def State.damageBlk (s : State) (blk : Nat) (d : Damage) (above : Bool) : State :=
  (s.countDamage d).openRecovery blk above (decide (d = .stale))

/-! ### A line read from the deep tier with errors (R277, R283) -/

/-- Marks a device of a rank (R277). -/
def State.markDevice (s : State) (k dev : Nat) : State :=
  let r := s.rank k
  if r.mark1 = 15 then
    (s.modRank k (fun r => { r with mark1 := dev, st := if r.st = 0 then 1 else r.st })).logRas
      { event := 0x02, sev := 0, level := 0, device := dev, loc := k }
  else if r.mark2 = 15 ∧ r.mark1 ≠ dev then
    ((s.modRank k (fun r => { r with mark2 := dev, st := if r.st = 0 ∨ r.st = 1 then 2 else r.st })).logRas
      { event := 0x02, sev := 0, level := 0, device := dev, loc := k }).retireRank k
  else s

/-- Counts a corrected line and its device hits; marks the device at MARK_THRESH distinct lines in one pass (R277). -/
def State.corrected (s : State) (k line : Nat) (devs : List Nat) : State :=
  let blk := line / 64
  let s := s.modRank k (fun r => { r with
    ce := satAdd 0xFFFFFFFF r.ce 1,
    hits := if r.mark1 = 15 then r.hits ++ (devs.map (fun d => (d, line))).filter (fun x => !r.hits.contains x) else r.hits })
  let s := { s with ras := { s.ras with ceDeep := s.ras.ceDeep + 1 } }
  let s := s.logCe k { event := 0x01, sev := 0, level := 0, part := s.partOfAddr (64 * line), device := devs.head?.getD 0xFF,
                       loc := s.deepLoc blk, addr := 64 * line }
  let s := if s.partOfAddr (64 * line) = 0xFF then s else s.countCe (s.partOfAddr (64 * line)) 1
  match devs.find? (fun d => decide (s.ras.markThresh ≤ ((s.rank k).hits.filter (fun h => h.1 == d)).length)) with
  | some d => if (s.rank k).mark1 = 15 then s.markDevice k d else s
  | none => s

/-- An uncorrectable deep-tier line: its bytes are free values from now on (DESIGN CHOICE, log 14); it is poisoned, a sealed block goes to recovery,
and the rank is retired unless SPARE_POLICY is POISON_ONLY (R283). -/
def State.ueDeepLine (s : State) (line : Nat) : State :=
  let blk := line / 64
  let k := s.rankOf blk
  let b := s.drawBytes 64
  let s := b.2
  let s := { s with
    mem := { s.mem with
      deep := memWrite s.mem.deep (64 * line) b.1, deepPoison := setAdd s.mem.deepPoison line, poisonSrc := tabSet s.mem.poisonSrc line 0 }
    ras := { s.ras with ueDeep := s.ras.ueDeep + 1, poisoned := s.ras.poisoned + 1 } }
  -- what waits in the merge buffer is newer and applies to the lost value
  let s := s.drainBlk blk
  let s := s.logRas { event := 0x03, sev := 2, level := 0, part := s.partOfAddr (64 * line), loc := s.deepLoc blk, addr := 64 * line }
  let s := if s.blkSealed blk then s.openRecovery blk false false else s
  if s.ras.poisonOnly then s else s.retireRank k

/-- How the read of a line ended. -/
inductive ReadEnd where
  | done
  | uncorrectable
  /-- The rank's locate step runs; the read waits (R277). -/
  | locating
deriving DecidableEq, Repr

/-- Reads line `i` of what a command reads, the line `line`, from the deep tier with the symbol errors it meets.
A unit whose valid bit is clear is not read (R279). -/
def State.readDeep (s : State) (line i : Nat) (errs : List SymErr) : ReadEnd × State :=
  let s := s.eraseTouch (line / 64)
  if !setHas s.mem.valid (line / 4) then (.done, s)
  else
    let k := s.rankOf (line / 64)
    if (s.rank k).locating.isSome then (.locating, s)
    else match decodeLine (s.rank k).marks errs i with
      | .good [] => (.done, s)
      | .good devs => (.done, s.corrected k line devs)
      | .uncorrectable => (.uncorrectable, s.ueDeepLine line)
      | .locate => (.locating, s.modRank k (fun r => { r with locating := some line }))
      | .wrong =>
        -- a miscorrection: what the decoder makes of the ciphertext is decrypted
        let c := xorB (s.toDram line (s.deepLine line).1) (lineDiff (s.rank k).marks errs i)
        (.done, { s with mem := { s.mem with deep := memWrite s.mem.deep (64 * line) (s.ofDram line c) } })

/-- Reads several lines; stops at the first that waits for a locate step. True when some line was uncorrectable. -/
def State.readDeepLines (s : State) (lines : List Nat) (errs : List SymErr) : ReadEnd × State :=
  (((List.range lines.length).zip lines).foldl (fun (acc : ReadEnd × State) x =>
    if acc.1 = .locating then acc
    else
      let r := acc.2.readDeep x.2 x.1 errs
      (if r.1 = .done then acc.1 else r.1, r.2)) (.done, s))

/-- Near-tier errors met by a read of a line: corrected bursts are counted; an uncorrectable one retires the pseudo-channel (R278, R285).
True when the line could not be read. -/
def State.readNearErrs (s : State) (line : Nat) (errs : List SymErr) : Bool × State :=
  match s.placeOf (line / 64) with
  | none => (false, s)
  | some (r, t) =>
    let stack := 2 * r + t % 2
    let pc := t / 2 % 32
    let outs := [nearBurst errs 0 0, nearBurst errs 0 1]
    let s := if outs.contains .wrong && !outs.contains .uncorrectable then
        ({ s with mem := { s.mem with near := memWrite s.mem.near (64 * line) (xorB (s.nearLine line).1 (nearDiff errs 0)) } } : State) else s
    -- errors that on-die ECC reports are counted, and nothing else is done
    let s := { s with ras := { s.ras with ceNear := s.ras.ceNear + (errs.filter (fun e => e.line == 0 && decide (18 ≤ e.dev))).length } }
    let fixed := outs.filter (fun o => match o with | .fixed _ => true | _ => false)
    let s := if fixed.isEmpty then s else
      ({ s with ras := { s.ras with ceNear := s.ras.ceNear + fixed.length } }).logCe (64 + 32 * stack + pc)
        { event := 0x08, sev := 0, level := 0, part := s.partOfAddr (64 * line), loc := nearLoc stack pc, addr := 64 * line,
          device := (match fixed.head? with | some (.fixed d) => d.head?.getD 0xFF | _ => 0xFF) }
    let s := if fixed.isEmpty || s.partOfAddr (64 * line) == 0xFF then s else s.countCe (s.partOfAddr (64 * line)) fixed.length
    if outs.contains .uncorrectable then
      let n := (outs.filter (· == .uncorrectable)).length
      let dirty : Bool := match s.nearFind (line / 64) with
        | some t => decide (t.st = NearSt.dirty)
        | none => false
      let s := { s with ras := { s.ras with ueNear := s.ras.ueNear + n } }
      let s := s.logRas { event := 0x09, sev := 1 + b2n dirty, level := 0, part := s.partOfAddr (64 * line),
                          loc := nearLoc stack pc, addr := 64 * line }
      (true, s.retirePc stack pc [line])
    else (false, s)

/-- Both copies of a metadata line are lost: every user-visible line it describes is poisoned (R280). -/
def State.loseMeta (s : State) (metaLine : Nat) : State :=
  let d := Config.metaDescribes metaLine
  let s := ((List.range d.2).map (d.1 + ·)).foldl (fun s l => s.setPoison l 0) s
  s.logRas { event := 0x12, sev := 2, level := 4, addr := 64 * d.1 }

end Sys2Proof.Machine
end

