-- ==== Sys2Proof/Machine/WingsOps.lean ====
section
/-! DEFINITION. The wings queues: packing, visibility, watermarks and discards (R356 to R365), and the hold of TST_Q_CTRL (Table 18-3). -/

namespace Sys2Proof.Machine

/-- Write word, read word, capacity in read words and CT_WORDS of a queue (Table 18-1). -/
def qShape (q : Nat) : Nat × Nat × Nat × Nat :=
  if q < 16 then (64, 128, 512, 1)
  else if q < 20 then (64, 128, 1024, 0)
  else if q < 24 then (128, 256, 512, 0)
  else (32, 64, 64, 2)

/-- Read-domain counter of a queue (Table 18-1) and its frequency in units of 10 kHz (Table 1-8); LINK at the trained rate. -/
def State.qReadClock (s : State) (q : Nat) : Nat × Nat :=
  if q < 8 then (s.clk.hmesh, 140000)
  else if q < 16 then (tabGet 0 s.clk.link (q - 8), 100000 * (s.port (q - 8)).rate / 64)
  else if q < 20 then (tabGet 0 s.clk.peer (q - 16), 78125)
  else if q < 72 then (s.clk.hmesh, 140000)
  else (tabGet 0 s.clk.d2d (if (q - 72) / 3 < 8 then 0 else 1), 200000)

/-- Write-domain counter of a queue and its frequency. -/
def State.qWriteClock (s : State) (q : Nat) : Nat × Nat :=
  if q < 8 then (tabGet 0 s.clk.link q, 100000 * (s.port q).rate / 64)
  else if q < 20 then (s.clk.hmesh, 140000)
  else if q < 24 then (tabGet 0 s.clk.peer (q - 20), 78125)
  else if q < 72 then (s.clk.deep, 180000)
  else (if (q - 72) / 3 < 8 then s.clk.near.1 else s.clk.near.2, 160000)

/-- Watermark at reset (R364): WQ_MARK percent of the capacity, rounded down, at least 1; no prompt book applied reads 0 (DESIGN CHOICE, log 4). -/
def State.qMark (s : State) (q : Nat) : Nat :=
  let m := (s.wqueue q).mark
  if m ≠ 0 then m else if s.pb.wqMark = 0 then 0 else max 1 ((qShape q).2.2.1 * s.pb.wqMark / 100)

/-- The LDs that a notice of a queue goes to (R365). -/
def State.qNoticeLds (s : State) (q : Nat) : List Nat :=
  if q < 16 then (List.range 16).map (fun l => 16 * (q % 8) + l) |>.filter (fun i => (s.pb.partOfLd i).isSome)
  else if 24 ≤ q ∧ (if q < 72 then (q - 24) % 3 else (q - 72) % 3) = 2 then
    ((s.pb.partitions.filter (·.rt)).map (fun p => s.pb.ldsOf p.num)).flatten
  else []

/-- A crossing of a queue's watermark takes place (R364, R365). -/
def State.qCrossing (s : State) (q : Nat) : State :=
  let w := s.wqueue q
  let s := s.modWq q (fun w => { w with crossCount := satAdd 0xFFFF w.crossCount 1, crossed := true })
  if w.crossed then s
  else
    let s := s.logEv .wqCrossed 0xFF q 1 w.level
    (s.qNoticeLds q).foldl (fun s i => s.msix i 0 (some .wqCrossed)) s

/-- Notes a crossing when the level has risen from below the watermark to it (R364). -/
def State.qCross (s : State) (q before : Nat) : State :=
  let m := s.qMark q
  if m ≠ 0 ∧ before < m ∧ m ≤ (s.wqueue q).level then s.qCrossing q else s

/-- Keys of the once-a-second entries of a queue in `Mgmt.rateCnt`. -/
def wqTruncKey (q : Nat) : Nat := 0x2000 + q
def wqOrphKey (q : Nat) : Nat := 0x3000 + q

/-- The read words that `n` writes complete, of a packet of which `k` words were visible; the last of them ends the packet with `tail` bytes in it when `eop` (R357). -/
def packWords (size k tail : Nat) (eop : Bool) : Nat → List RWord
  | 0 => []
  | 1 => [{ sop := k == 0, eop := eop, bytes := if eop then tail - 1 else size - 1 }]
  | n + 2 => { sop := k == 0, eop := false, bytes := size - 1 } :: packWords size (k + 1) tail eop (n + 1)

/-- A reader may begin the packet at the head: its EOP word is visible, or CT_WORDS of its words are (R359). -/
def mayBegin (ct : Nat) (ws : List RWord) : Bool := ws.any (·.eop) || (decide (0 < ct) && decide (ct ≤ ws.length))

/-- The reader takes up to `n` words, in the order they were written: whether it is then inside a packet, and what stays (R357, R359). -/
def readWords (ct : Nat) : Nat → Bool → List RWord → Bool × List RWord
  | 0, r, ws => (r, ws)
  | _ + 1, r, [] => (r, [])
  | n + 1, r, w :: ws => if r || mayBegin ct (w :: ws) then readWords ct n (!w.eop) ws else (r, w :: ws)

/-- The writes of one burst that the queue takes now (R357, R358, R361). -/
def State.qTake (s : State) (b : QBurst) : State :=
  let q := b.q
  let sh := qShape q
  let w := s.wqueue q
  -- a write with SOP ends a discard and begins a new packet
  let s := if b.sop then
      let n := w.orphanWords
      let s := s.modWq q (fun w => { w with
        orphan := false, discard := none, orphanWords := 0, wrPkt := (w.wrPkt + 1) % 4, inPkt := true, asm := 0, pktWords := 0 })
      if w.orphan then s.logRated (wqOrphKey q) n (fun c s => s.logEv .wqOrphan 0xFF q c (s.wqueue q).level) else s
    else s
  let w := s.wqueue q
  if w.orphan && w.discard == some w.wrPkt then
    s.modWq q (fun w => { w with
      orphanBytes := w.orphanBytes + b.bytes, orphanWords := w.orphanWords + ceilDiv b.bytes sh.1, inPkt := !b.eop })
  else if w.closed.contains w.wrPkt then s.modWq q (fun w => { w with inPkt := !b.eop })
  else
    let total := w.asm + b.bytes
    let vis := total / sh.2.1 + b2n (b.eop && total % sh.2.1 != 0)
    let clk := (s.qReadClock q).1
    let tail := if total % sh.2.1 = 0 then sh.2.1 else total % sh.2.1
    let s := s.modWq q (fun w => { w with
      words := w.words ++ packWords sh.2.1 w.pktWords tail b.eop vis
      asm := if b.eop then 0 else total % sh.2.1
      inPkt := !b.eop
      pktWords := if b.eop then 0 else w.pktWords + vis
      stallSince := if vis = 0 then w.stallSince else clk })
    s.qCross q w.level

/-- Offers a burst to its queue: a hold of TST_Q_CTRL or a full queue keeps back what does not pass (R358, Table 18-3). -/
def State.qOffer (s : State) (b : QBurst) : State :=
  let q := b.q
  let sh := qShape q
  let w := s.wqueue q
  let tst := tabGet 0 s.wq.tstQ q
  if w.holding || !w.heldBursts.isEmpty then s.modWq q (fun w => { w with heldBursts := w.heldBursts ++ [b] })
  else if bit tst 60 && b.sop && decide (0 < bits tst 59 48) then
    -- the hold begins after HOLD_AFTER write words of this packet; ARM clears
    let n := min b.bytes (bits tst 59 48 * sh.1)
    let s := s.qTake { b with bytes := n, eop := b.eop && n == b.bytes }
    let s := { s with wq := { s.wq with tstQ := tabSet s.wq.tstQ q (tst - 2 ^ 60) } }
    s.modWq q (fun w => { w with
      holding := true,
      holdSince := (s.qWriteClock q).1,
      heldBursts := if n = b.bytes then [] else [{ b with sop := false, bytes := b.bytes - n, taken := 0 }] })
  else
    let room := (sh.2.2.1 - w.level) * sh.2.1 - w.asm
    if b.bytes ≤ room || (w.orphan && !b.sop) then s.qTake b
    else
      let s := s.qTake { b with bytes := room, eop := false }
      s.modWq q (fun w => { w with heldBursts := [{ b with sop := false, bytes := b.bytes - room, taken := 0 }] })

/-- Offers again what was held, in order, when no hold is in force. -/
def State.qRetry (s : State) (q : Nat) : State :=
  let w := s.wqueue q
  if w.holding then s
  else w.heldBursts.foldl (fun s b => s.qOffer b) (s.modWq q (fun w => { w with heldBursts := [] }))

/-- A burst, then the read words its reader takes. -/
def State.qBurst (s : State) (b : QBurst) : State :=
  if 120 ≤ b.q then s
  else
    let s := s.qOffer b
    let s := s.modWq b.q (fun w =>
      let r := readWords (qShape b.q).2.2.2 b.taken w.reading w.words
      { w with reading := r.1, words := r.2 })
    if b.taken = 0 then s else s.qRetry b.q

/-- The bursts that a command's traffic makes, in order (DESIGN CHOICE, log 10). -/
def State.qBursts (s : State) (bs : List QBurst) : State := bs.foldl (fun s b => s.qBurst b) s

/-- Discards the packets and partial words of a queue without closing them (R363). -/
def State.qDiscard (s : State) (q : Nat) : State :=
  s.modWq q (fun w => { w with words := [], reading := false, asm := 0, inPkt := false, pktWords := 0, heldBursts := [], holding := false, reissued := [] })

/-- Discards what several queues hold (R363). -/
def State.qDiscards (s : State) (qs : List Nat) : State := qs.foldl (fun s q => s.qDiscard q) s

end Sys2Proof.Machine
end

