-- ==== Sys2Proof/Machine/ColdonOps.lean ====
section
/-! DEFINITION. Coldon transport: sessions, sending, acknowledgement and the receive checks (R224 to R239). -/

namespace Sys2Proof.Machine

/-! ### Message lengths and types (Table 10-4) -/

end Sys2Proof.Machine

namespace Sys2Proof

/-- TYPE of a message and its body length in bytes (Table 10-4). -/
def ColdonMsg.typeLen : ColdonMsg → Nat × Nat
  | .hello _ => (0x01, 440)
  | .helloRsp _ => (0x02, 440)
  | .finish => (0x03, 0)
  | .ack b => (0x04, 4 + 8 * b.length)
  | .ping _ => (0x05, 8)
  | .pong _ => (0x06, 8)
  | .close _ => (0x07, 1)
  | .nak .. => (0x08, 7)
  | .read .. => (0x10, 28)
  | .readRsp _ _ _ _ d => (0x11, 32 + d.length)
  | .write _ _ _ _ _ _ d => (0x12, 48 + d.length)
  | .add _ _ _ _ _ _ _ _ d => (0x13, 48 + d.length)
  | .delta _ _ _ _ _ _ d => (0x14, 48 + d.length)
  | .writeAck .. => (0x15, 5)
  | .reserve .. => (0x20, 25)
  | .commit .. => (0x21, 26)
  | .abandon .. => (0x22, 26)
  | .acquire .. => (0x23, 25)
  | .release .. => (0x24, 25)
  | .regionRsp .. => (0x25, 16)
  | .fill .. => (0x26, 40)
  | .mirror .. => (0x27, 24)
  | .promote .. => (0x28, 8)
  | .tableFetch .. => (0x30, 18)
  | .tableRsp .. => (0x31, 136)
  | .tableDrop .. => (0x32, 2)
  | .tableRelease .. => (0x33, 2)
  | .reduceJoin .. => (0x40, 16)
  | .reduceData _ _ _ _ _ _ d => (0x41, 32 + d.length)
  | .reduceSum _ _ _ _ _ _ d => (0x42, 32 + d.length)
  | .reduceAbort .. => (0x43, 8)

/-- SEQD of a type (Table 10-4). -/
def ColdonMsg.sequenced (m : ColdonMsg) : Bool := m.typeLen.1 == 0x07 || decide (0x10 ≤ m.typeLen.1)

open Sys2Proof.Machine

/-- Bytes 0 to 307 of a HELLO body (Table 10-4). -/
def HelloBody.head (b : HelloBody) : Bytes :=
  leBytes 2 b.moduleId ++ leBytes 2 0 ++ leBytes 4 b.lsid ++ slice b.nonce 0 32 ++ slice b.eph 0 133 ++ slice b.idKey 0 133 ++ leBytes 2 0

def HelloBody.bytes (b : HelloBody) : Bytes := b.head ++ slice b.sig 0 132

/-- Bytes 0 to 47 of WRITE, ADD and DELTA (Table 10-4); `fl` is byte 26. -/
def storeHead (c rid rtag dg n fl p : Nat) : Bytes :=
  leBytes 8 c ++ leBytes 4 rid ++ leBytes 4 rtag ++ leBytes 8 dg ++ leBytes 2 n ++ leBytes 2 fl ++ leBytes 4 0 ++ leBytes 16 p

/-- Bytes 0 to 24 of the region requests (Table 10-4); `x` is the field of bytes 16 to 23. -/
def regionHead (rid rtag dg x part : Nat) : Bytes := leBytes 4 rid ++ leBytes 4 rtag ++ leBytes 8 dg ++ leBytes 8 x ++ leBytes 1 part

/-- Bytes 0 to 31 of REDUCE_DATA and REDUCE_SUM (Table 10-4). -/
def reduceHead (g r f q e p : Nat) : Bytes :=
  leBytes 2 g ++ leBytes 1 r ++ leBytes 1 f ++ leBytes 4 q ++ leBytes 4 e ++ leBytes 4 0 ++ leBytes 16 p

/-- The body of a message (Table 10-4). -/
def ColdonMsg.bytes : ColdonMsg → Bytes
  | .hello b | .helloRsp b => b.bytes
  | .finish => []
  | .ack l => leBytes 1 l.length ++ leBytes 3 0 ++ l.flatMap (fun x => leBytes 4 x.1 ++ leBytes 4 x.2)
  | .ping c | .pong c => leBytes 8 c
  | .close r => leBytes 1 r
  | .nak x m r => leBytes 4 x ++ leBytes 2 m ++ leBytes 1 r
  | .read c rid rtag dg n pre coded => leBytes 8 c ++ leBytes 4 rid ++ leBytes 4 rtag ++ leBytes 8 dg ++ leBytes 2 n ++ leBytes 2 (b2n pre + 2 * b2n coded)
  | .readRsp rtag st p e d => leBytes 4 rtag ++ leBytes 1 st ++ leBytes 3 0 ++ leBytes 16 p ++ leBytes 8 e ++ d
  | .write c rid rtag dg n p d | .delta c rid rtag dg n p d => storeHead c rid rtag dg n 0 p ++ d
  | .add c rid rtag dg n a f p d => storeHead c rid rtag dg n (b2n a + 2 * b2n f) p ++ d
  | .writeAck rtag st => leBytes 4 rtag ++ leBytes 1 st
  | .reserve rid rtag dg b p => regionHead rid rtag dg b p
  | .commit rid rtag dg b p k => regionHead rid rtag dg b p ++ leBytes 1 k
  | .abandon rid rtag dg p k => regionHead rid rtag dg 0 p ++ leBytes 1 k
  | .acquire rid rtag dg v p => regionHead rid rtag dg v p
  | .release rid rtag dg p => regionHead rid rtag dg 0 p
  | .regionRsp rtag st k e v => leBytes 4 rtag ++ leBytes 1 st ++ leBytes 1 k ++ leBytes 2 e ++ leBytes 8 v
  | .fill rid rtag dg b n o l =>
    leBytes 4 rid ++ leBytes 4 rtag ++ leBytes 8 dg ++ leBytes 1 b ++ leBytes 1 n ++ leBytes 6 0 ++ leBytes 8 o ++ leBytes 8 l
  | .mirror rid rtag e ch k m p st v =>
    leBytes 4 rid ++ leBytes 4 rtag ++ leBytes 2 e ++ leBytes 1 ch ++ leBytes 1 k ++ leBytes 2 m ++ leBytes 1 p ++ leBytes 1 st ++ leBytes 8 v
  | .promote rid e h => leBytes 4 rid ++ leBytes 2 e ++ leBytes 2 h
  | .tableFetch rid rtag dg k g => leBytes 4 rid ++ leBytes 4 rtag ++ leBytes 8 dg ++ leBytes 1 k ++ leBytes 1 g
  | .tableRsp rtag st k g f l =>
    leBytes 4 rtag ++ leBytes 1 st ++ leBytes 1 k ++ leBytes 1 g ++ leBytes 1 f ++
      (List.range 128).flatMap (fun i => leBytes 1 (l[2 * i]?.getD 0 % 16 + 16 * (l[2 * i + 1]?.getD 0 % 16)))
  | .tableDrop k g | .tableRelease k g => leBytes 1 k ++ leBytes 1 g
  | .reduceJoin g q r f c => leBytes 2 g ++ leBytes 2 0 ++ leBytes 4 q ++ leBytes 1 r ++ leBytes 1 0 ++ leBytes 2 f ++ leBytes 4 c
  | .reduceData g r f q e p d | .reduceSum g r f q e p d => reduceHead g r f q e p ++ d
  | .reduceAbort g r q => leBytes 2 g ++ leBytes 1 r ++ leBytes 1 0 ++ leBytes 4 q

/-- The values of a body are ones that its TYPE has: whole lines, LINES from 1 to 128, CADDR aligned and of 58 bits, no reserved value (R227, R228, R238). -/
def ColdonMsg.wellFormed : ColdonMsg → Bool
  | .read c _ _ _ n _ coded => decide (c < 2 ^ 58) && c % 64 == 0 && decide (1 ≤ n) && decide (n ≤ 128) && (!coded || (c % 4096 == 0 && n == 64))
  | .write c _ _ _ n _ d | .delta c _ _ _ n _ d =>
    decide (c < 2 ^ 58) && c % 64 == 0 && decide (1 ≤ n) && decide (n ≤ 128) && d.length == 64 * n
  | .add c _ _ _ n _ _ _ d => decide (c < 2 ^ 58) && c % 64 == 0 && decide (1 ≤ n) && decide (n ≤ 128) && d.length == 64 * n
  | .readRsp _ st _ _ d => decide (st ≤ 10) && d.length % 64 == 0 && decide (d.length ≤ 8192)
  | .writeAck _ st => decide (st ≤ 10)
  | .regionRsp _ st .. => decide (st ≤ 10)
  | .tableRsp _ st _ _ _ l => decide (st ≤ 10) && l.length == 256
  | .ack b => decide (b.length ≤ 16)
  | .close r => decide (r ≤ 3)
  | .nak _ _ r => r == 1
  | .mirror _ _ _ ch _ _ _ st _ => decide (ch ≤ 2) && decide (st ≤ 3)
  | .hello b | .helloRsp b => decide (1 ≤ b.lsid) && b.nonce.length == 32 && b.eph.length == 133 && b.idKey.length == 133 && b.sig.length == 132
  | .fill .. | .promote .. | .reserve .. | .commit .. | .abandon .. | .acquire .. | .release .. => true
  | .reduceData _ _ f _ _ _ d | .reduceSum _ _ f _ _ _ d => decide (f ≤ 2) && d.length % 64 == 0 && decide (d.length ≤ 8192)
  | .reduceAbort _ r _ => decide (r ≤ 2)
  | _ => true

/-- Bytes 0 to 35 of a frame's Coldon header (Table 10-3), reserved bits included. -/
def Frame.headBytes (f : Frame) : Bytes :=
  xorBytes (leBytes 36 f.rsv) (leBytes 1 (f.version * 16) ++ leBytes 1 f.typ ++
    leBytes 2 (fld (b2n f.ece) 1 4 + fld (b2n f.retx) 1 3 + fld (b2n f.ackv) 1 2 + fld (b2n f.seqd) 1 1 + b2n f.enc) ++
    leBytes 4 f.session ++ leBytes 4 f.seq ++ leBytes 4 f.ack ++ leBytes 2 f.len ++ leBytes 2 f.credit ++
    leBytes 2 (f.src % 2 ^ 14) ++ leBytes 2 (f.dst % 2 ^ 14) ++ leBytes 8 f.txc ++ leBytes 4 0)

/-- Check 3 of Table 10-7. -/
def Frame.headOk (f : Frame) : Bool :=
  f.version == 1 && f.rsv == 0 && decide (f.src < 2 ^ 14) && decide (f.dst < 2 ^ 14) && f.hchk == crc32c f.headBytes &&
    f.udpLen == 48 + f.len + (if f.enc then 16 else 0) && decide (f.len ≤ 8256)

/-- The plaintext body a frame carries: LEN bytes, reserved bits included. -/
def Frame.bodyBytes (f : Frame) (m : ColdonMsg) : Bytes := slice (xorBytes (slice m.bytes 0 f.len) (leBytes f.len f.bodyRsv)) 0 f.len

/-- The body is well formed for the frame's TYPE (R227, R238). -/
def Frame.bodyOk (f : Frame) (m : ColdonMsg) : Bool := f.typ == m.typeLen.1 && f.len == m.typeLen.2 && f.bodyRsv == 0 && m.wellFormed

/-- AES-256-GCM of a payload under the 36 bytes of a direction: the nonce is the salt followed by TXC, the additional data the header (R226). -/
def sealPayload (key : Bytes) (txc : Nat) (header body : Bytes) : Bytes × Bytes :=
  gcmSeal (slice key 0 32) (slice key 32 4 ++ leBytes 8 txc) header body

/-- Check 7 of Table 10-7: the tag is the one of the body, the header and TXC under the receiving key (R226). -/
def Frame.tagOk (f : Frame) (key : Bytes) (m : ColdonMsg) : Bool :=
  f.tag == (sealPayload key f.txc (f.headBytes ++ leBytes 4 f.hchk) (f.bodyBytes m)).2

end Sys2Proof

namespace Sys2Proof.Machine

/-! ### Lookup -/

def State.peerClock (s : State) (p : Nat) : Nat := tabGet 0 s.clk.peer p

/-- PEER cycles of a time in ns, at 781.25 MHz (Table 1-8). -/
def peerNs (ns : Nat) : Nat := ns * 78125 / 100000

def State.sess? (s : State) (peer : Nat) : Option Sess := s.cld.sessions.find? (fun x => x.peer == peer)

def State.modSess (s : State) (peer : Nat) (f : Sess → Sess) : State :=
  { s with cld := { s.cld with sessions := s.cld.sessions.map (fun x => if x.peer == peer then f x else x) } }

/-- The permitted peer of a module ID (R229). -/
def PromptBook.peer? (b : PromptBook) (m : Nat) : Option PbPeer := b.peers.find? (fun x => x.moduleId == m)

/-- Sessions that send on a port. -/
def State.sessionsOn (s : State) (p : Nat) : Nat := (s.cld.sessions.filter (fun x => x.port == p)).length

/-- The sending port of a session: in service, with the fewest sessions, lowest number on ties (R237). -/
def State.sendPort (s : State) : Option Nat :=
  ((List.range 4).filter (fun p => (s.cport p).up)).foldl (fun b p => match b with
    | none => some p
    | some q => if s.sessionsOn p < s.sessionsOn q then some p else some q) none

/-- A peer's address with the number of a port (R237). -/
def State.peerAddr (s : State) (peer port : Nat) : Nat := ((s.pb.peer? peer).bind (fun x => x.ips[port]?)).getD 0

/-- Bytes in the reorder buffer of a port. -/
def State.reorderBytes (s : State) (p : Nat) : Nat :=
  ((s.cld.sessions.filter (fun x => x.port == p)).map (fun x => (x.reorder.map (fun e => e.2.typeLen.2)).sum)).sum

def portBufBytes : Nat := 4194304

/-- CREDIT advertised: RX_WINDOW, or 0 while the port's reorder buffer is more than 90 % full (R236). -/
def State.credit (s : State) (p : Nat) : Nat := if portBufBytes * 9 < s.reorderBytes p * 10 then 0 else s.pb.rxWindow

/-- XOFF past 90 % of the reorder buffer, XON below 75 % (R224) (DEDUCED, log 97). -/
def State.pfcCheck (s : State) (p : Nat) : State :=
  let en := ((s.pb.cldPorts.find? (fun x => x.port == p)).map (·.pfcEn)).getD false
  let b := s.reorderBytes p
  let c := s.cport p
  if en && !c.xoff && decide (portBufBytes * 9 < b * 10) then (s.modCport p (fun c => { c with xoff := true })).emit (.pfc p true)
  else if c.xoff && decide (b * 4 < portBufBytes * 3) then (s.modCport p (fun c => { c with xoff := false })).emit (.pfc p false)
  else s

/-! ### Frames (R225, R226) -/

/-- Sum of a byte string's 16-bit words, high byte first, folded to 16 bits (the Internet checksum's sum). -/
def sum16 (b : Bytes) : Nat :=
  let n := (List.range ((b.length + 1) / 2)).foldl (fun a i => a + beNat (slice b (2 * i) 2)) 0
  (n % 65536 + n / 65536) % 65536 + (n % 65536 + n / 65536) / 65536

/-- UDP checksum over the IPv6 pseudo-header and the datagram; 0 is sent as 0xFFFF. -/
def udpSum (src dst sport dport : Nat) (d : Bytes) : Nat :=
  let n := 8 + d.length
  let v := 65535 - sum16 (beBytes 16 src ++ beBytes 16 dst ++ beBytes 4 n ++ beBytes 4 17 ++ beBytes 2 sport ++ beBytes 2 dport ++ beBytes 2 n ++ beBytes 2 0 ++ d)
  if v = 0 then 65535 else v

/-- Lays a frame out (Tables 10-2, 10-3): `own` is the sender's SESSION, `h` the header fields. -/
def State.wireOf (s : State) (h : Frame) (own : Nat) (key : Bytes) (m : ColdonMsg) : Wire :=
  let c := (s.pb.cldPorts.find? (fun x => x.port == h.port)).getD default
  let head := h.headBytes ++ leBytes 4 (crc32c h.headBytes)
  let e := if h.enc then sealPayload key h.txc head m.bytes else (m.bytes, [])
  let sport := 0xC000 ||| own % 2 ^ 14
  { dstMac := c.gwMac, srcMac := Config.portMac h.port, vlan := if c.vlan = 0 then none else some (c.vlan, c.pcp),
    tclass := 4 * c.dscp + 2, flow := own % 2 ^ 20, hops := 64, srcIp := c.ip, dstIp := h.dstIp, srcPort := sport, dstPort := s.pb.udpPort,
    checksum := udpSum c.ip h.dstIp sport s.pb.udpPort (head ++ e.1 ++ e.2), header := head, payload := e.1, tag := e.2 }

/-- The header fields of a frame that this module sends from a port to a module at an address. -/
def State.outHead (s : State) (p to_ dst session txc : Nat) (m : ColdonMsg) : Frame :=
  { port := p, fcsOk := true, frameLen := 0, vlan := none, udp := true, srcIp := 0, dstIp := to_, udpPort := s.pb.udpPort, udpLen := 0, sumOk := true, ce := false,
    version := 1, typ := m.typeLen.1, ece := false, retx := false, ackv := false, seqd := false, enc := false, session := session, seq := 0, ack := 0,
    len := m.typeLen.2, credit := 0, src := s.pb.moduleId, dst := dst, txc := txc, rsv := 0, hchk := 0, bodyRsv := 0, tag := [] }

/-! ### Sending -/

/-- Sends a frame from a port, or keeps it while the port is paused (R224). -/
def State.sendOut (s : State) (p : Nat) (o : Output) : State :=
  if (s.cport p).paused then s.modCport p (fun c => { c with waiting := c.waiting ++ [o] })
  else (s.modCport p (fun c => { c with tx := c.tx + 1 })).emit o

/-- Sends what waited for the end of a pause. -/
def State.sendWaiting (s : State) (p : Nat) : State :=
  let w := (s.cport p).waiting
  w.foldl (fun s o => s.sendOut p o) (s.modCport p (fun c => { c with waiting := [] }))

/-- Sends HELLO, HELLO_RSP or NAK: unencrypted, with SESSION and TXC 0 (Table 10-3, R226). `own` is the sender's SESSION, for the flow label and the source port. -/
def State.sendPlain (s : State) (p to_ dst own : Nat) (m : ColdonMsg) : State :=
  s.sendOut p (.frame p to_ 0 none 0 false 0 0 false m (s.wireOf (s.outHead p to_ dst 0 0 m) own [] m))

/-- Sends one frame of a session: the next TXC, ACK and CREDIT on every frame but FINISH, ECE echoed once (R226, R234, R237). -/
def State.sendFrame (s : State) (peer : Nat) (seq : Option Nat) (retx : Bool) (m : ColdonMsg) : State :=
  match s.sess? peer with
  | none => s
  | some x =>
    let ack := if m == .finish then 0 else x.rcvNxt % 2 ^ 32
    let credit := if m == .finish then 0 else s.credit x.port
    let h := { s.outHead x.port x.dst peer x.psid x.txc m with
      ece := x.echoEce, retx := retx, ackv := m != .finish, seqd := seq.isSome, enc := true, seq := seq.getD 0, ack := ack, credit := credit }
    let w := s.wireOf h x.lsid x.txKey m
    let s := s.modSess peer (fun y => { y with txc := y.txc + 1, echoEce := false, unacked := 0, ackSince := none })
    let s := s.modCport x.port (fun c => { c with retx := c.retx + b2n retx })
    s.sendOut x.port (.frame x.port x.dst x.psid seq x.txc retx ack credit x.echoEce m w)

/-- Sends an outstanding message again: the same SEQ and body, RETX, a new TXC, and its bytes charged once more (R235, Table 11-2). -/
def State.resend (s : State) (peer : Nat) (o : OutMsg) : State :=
  match s.sess? peer with
  | none => s
  | some x => (s.charge clsPeer x.port o.act o.msg.typeLen.2).sendFrame peer (some (o.seq % 2 ^ 32)) true o.msg

/-- Messages and payload bytes in a port's transmit buffer (R236). -/
def State.txBuf (s : State) (p : Nat) : Nat × Nat :=
  let os := (s.cld.sessions.filter (fun x => x.port == p)).flatMap (·.outst)
  (os.length, (os.map (fun o => o.msg.typeLen.2)).sum)

/-- The window and the port's transmit buffer let a session send its next sequenced message (R236). -/
def State.mayTx (s : State) (x : Sess) (m : ColdonMsg) : Bool :=
  let b := s.txBuf x.port
  (s.cport x.port).up && decide (x.sndNxt < x.peerAck + min x.peerCredit x.cwnd) && decide (b.1 < 4096) && decide (b.2 + m.typeLen.2 ≤ portBufBytes)

/-- Who a message's PEER_BYTES are charged to: the request's activity, given by the caller in `act` (Table 11-2). -/
def State.txSeq (s : State) (peer act : Nat) (m : ColdonMsg) : State :=
  match s.sess? peer with
  | none => s
  | some x =>
    let q := x.sndNxt
    let s := s.modSess peer (fun y => { y with
      sndNxt := y.sndNxt + 1, sinceCut := y.sinceCut.map (· + 1),
      outst := y.outst ++ [{ seq := q, act := act, msg := m, sentAt := s.peerClock x.port, rtoNs := s.pb.rtoInitNs, expiries := 0, sackedLater := 0, sacked := false }] })
    (s.charge clsPeer x.port act m.typeLen.2).sendFrame peer (some (q % 2 ^ 32)) false m

/-- Sends a sequenced message, or queues it behind the window (R234, R236). Without a session it is not sent (R238). -/
def State.sendSeq (s : State) (peer act : Nat) (m : ColdonMsg) : State :=
  match s.sess? peer with
  | none => s
  | some x =>
    if x.sendq.isEmpty && s.mayTx x m then s.txSeq peer act m
    else s.modSess peer (fun y => { y with sendq := y.sendq ++ [(act, m)] })

/-- Sends what the window now lets pass, the activities in their order at the port, each one's messages in turn (R236, R246); `n` bounds the messages. -/
def State.pumpTx : Nat → State → Nat → State
  | 0, s, _ => s
  | n + 1, s, peer =>
    match s.sess? peer with
    | none => s
    | some x =>
      let next := s.grantee clsPeer x.port (x.sendq.map (fun m => (m.1, false)))
      match x.sendq.find? (fun m => some m.1 == next) with
      | none => s
      | some m =>
        if s.mayTx x m.2 then State.pumpTx n (((s.modSess peer (fun y => { y with sendq := y.sendq.erase m })).txSeq peer m.1 m.2).served clsPeer x.port m.1) peer else s

/-- Ranges of SEQs received beyond ACK, highest first, at most 16 (R235). -/
def ackBlocks (got : List Nat) : List (Nat × Nat) :=
  (got.foldl (fun (bs : List (Nat × Nat)) q => match bs with
    | (a, b) :: t => if b = q then (a, q + 1) :: t else (q, q + 1) :: (a, b) :: t
    | [] => [(q, q + 1)]) []).take 16

/-- Sends ACK at once (R235). -/
def State.ackNow (s : State) (peer : Nat) : State :=
  match s.sess? peer with
  | none => s
  | some x => s.sendFrame peer none false (.ack ((ackBlocks (x.reorder.map (·.1))).map (fun b => (b.1 % 2 ^ 32, b.2 % 2 ^ 32))))

/-! ### Ending a session (R232) -/

/-- Ends a session: it is removed with its outstanding and queued messages; SESSION_DOWN is recorded.
The requests those messages carried are completed by the caller, as those of an unreachable peer (DEDUCED, log 115). -/
def State.endSession (s : State) (peer : Nat) : State :=
  match s.sess? peer with
  | none => s
  | some x =>
    let s := { s with cld := { s.cld with sessions := s.cld.sessions.filter (fun x => x.peer != peer) } }
    ((s.logEv .sessionDown 0xFF peer 1 0).qDiscards [16 + x.port, 20 + x.port]).pfcCheck x.port

/-- Sends CLOSE, when the window and the buffers let one more message out, and ends the session; messages still behind the window go unsent (DEDUCED, log 100). -/
def State.closeSession (s : State) (peer reason : Nat) : State :=
  match s.sess? peer with
  | none => s
  | some x => (if s.mayTx x (.close reason) then s.txSeq peer actColdon (.close reason) else s).endSession peer

/-! ### Acknowledgement (R234, R235, R237) -/

/-- A selective block covers a SEQ (R234). -/
def blockHas (b : Nat × Nat) (q : Nat) : Bool := decide ((q + 2 ^ 32 - b.1 % 2 ^ 32) % 2 ^ 32 < (b.2 + 2 ^ 32 - b.1 % 2 ^ 32) % 2 ^ 32)

/-- Takes ACK, CREDIT, ECE and selective blocks of a frame of a session (R234 to R237). -/
def State.takeAck (s : State) (peer : Nat) (ackv ece : Bool) (ack credit : Nat) (blocks : List (Nat × Nat)) : State :=
  match s.sess? peer with
  | none => s
  | some x =>
    let s := if !ackv then s else
      -- the full sequence number that a 32-bit ACK names, near the last one
      let full := x.peerAck + (ack + 2 ^ 32 - x.peerAck % 2 ^ 32) % 2 ^ 32
      let full := if x.sndNxt < full then x.peerAck else full
      let covers := fun q => blocks.any (fun b => blockHas b (q % 2 ^ 32))
      let newly := (x.outst.filter (fun o => !o.sacked && covers o.seq)).map (·.seq)
      s.modSess peer (fun y => { y with
        peerAck := full, peerCredit := credit,
        ackedRun := y.ackedRun + (full - y.peerAck),
        outst := (y.outst.filter (fun o => decide (full ≤ o.seq))).map (fun o =>
          let got := o.sacked || covers o.seq
          { o with sacked := got, rtoNs := if got then s.pb.rtoInitNs else o.rtoNs, expiries := if got then 0 else o.expiries,
                   sackedLater := o.sackedLater + (newly.filter (fun q => decide (o.seq < q))).length }) })
    -- congestion window
    let s := if ece then
        (match s.sess? peer with
          | some y =>
            if y.sinceCut.all (fun n => decide (y.cwnd ≤ n)) then
              (s.modSess peer (fun y => { y with cwnd := max 16 (y.cwnd / 2), sinceCut := some 0, ackedRun := 0 })).modCport y.port
                (fun c => { c with ece := c.ece + 1 })
            else s.modSess peer (fun y => { y with ackedRun := 0 })
          | none => s)
      else s.modSess peer (fun y => if y.cwnd ≤ y.ackedRun then { y with cwnd := min 4095 (y.cwnd + 16), ackedRun := 0 } else y)
    -- fast retransmission of what three later messages have overtaken
    let s := match s.sess? peer with
      | none => s
      | some y => (y.outst.filter (fun o => !o.sacked && decide (3 ≤ o.sackedLater))).foldl (fun s o =>
          (s.modSess peer (fun z => { z with outst := z.outst.map (fun p =>
            if p.seq == o.seq then { p with sackedLater := 0, sentAt := s.peerClock z.port } else p) })).resend peer o) s
    State.pumpTx 4096 s peer

/-! ### Receive checks (R239) -/

/-- NAK, at most one per source address per 100 µs (check 5 of Table 10-7). -/
def State.nak (s : State) (f : Frame) : State :=
  let now := s.peerClock f.port
  let quiet := match tabFind s.cld.nakAt f.srcIp with
    | some t => decide (now < t + peerNs 100000)
    | none => false
  if quiet then s
  else ({ s with cld := { s.cld with nakAt := tabSet s.cld.nakAt f.srcIp now } } : State).sendPlain f.port f.srcIp f.src 0 (.nak f.session s.pb.moduleId 1)

/-- Checks 1 and 2 of Table 10-7: which counter of the port a frame that fails them adds to (R224). -/
def State.linkCheck (s : State) (f : Frame) : Option (CPort → CPort) :=
  let c := (s.pb.cldPorts.find? (fun x => x.port == f.port)).getD default
  if 9216 < f.frameLen then some (fun p => { p with oversize := p.oversize + 1 })
  else if !f.fcsOk || f.vlan.any (· != c.vlan) then some (fun p => { p with macErr := p.macErr + 1 })
  else if !f.udp || f.dstIp != c.ip || f.udpPort != s.pb.udpPort || !f.sumOk then some (fun p => { p with rxOther := p.rxOther + 1 })
  else none

/-- What the receive checks make of a frame: the state, and the messages it lets pass to the hub die, in order. -/
structure Rx where
  s : State
  msgs : List ColdonMsg := []
deriving DecidableEq, Repr

/-- Hands over a run of messages in SEQ order from the reorder buffer. -/
def drainReorder : Nat → Tab ColdonMsg → Nat → List ColdonMsg × Tab ColdonMsg × Nat
  | 0, t, n => ([], t, n)
  | k + 1, t, n =>
    match tabFind t n with
    | none => ([], t, n)
    | some m => let r := drainReorder k (tabDel t n) (n + 1); (m :: r.1, r.2)

/-- A frame that passes the checks is taken: counted, and its ACK, CREDIT and ECE taken; a protocol error closes the session (R238, R239). -/
def State.takeFrame (s : State) (f : Frame) (m : ColdonMsg) : State :=
  let s := s.modCport f.port (fun c => { c with rx := c.rx + 1 })
  let s := s.takeAck f.src f.ackv f.ece f.ack f.credit (match m with | .ack b => b | _ => [])
  if f.bodyOk m && f.seqd == m.sequenced then s else s.closeSession f.src 3

/-- Check 8 of Table 10-7: TXC has been received, or is 65,536 or more below the highest received. -/
def Sess.replayed (x : Sess) (f : Frame) : Bool :=
  setHas x.rxSeen f.txc || (match x.rxHigh with | some h => decide (f.txc + 65536 ≤ h) | none => false)

/-- Takes a frame of an established session that has passed checks 1 to 8 (Table 10-7). -/
def State.deliver (s : State) (x : Sess) (f : Frame) (m : ColdonMsg) : Rx :=
  let high := match x.rxHigh with | some h => max h f.txc | none => f.txc
  let s := s.modSess f.src (fun y => { y with
    rxHigh := some high, rxSeen := (setAdd y.rxSeen f.txc).filter (fun t => decide (high < t + 65536)),
    lastRx := s.peerClock y.port, dst := f.srcIp, echoEce := y.echoEce || f.ce })
  if !f.seqd then
    let s := s.takeFrame f m
    { s := s, msgs := if (s.sess? f.src).isSome then [m] else [] }
  else
    let d := (f.seq + 2 ^ 32 - x.rcvNxt % 2 ^ 32) % 2 ^ 32
    let q := x.rcvNxt + d
    if 4095 < d ∨ (tabFind x.reorder q).isSome then
      { s := (s.modCport f.port (fun c => { c with dup := c.dup + 1 })).ackNow f.src }
    else if portBufBytes < s.reorderBytes x.port + m.typeLen.2 then
      { s := s.modCport f.port (fun c => { c with noBuffer := c.noBuffer + 1 }) }
    else
      let s := s.takeFrame f m
      if (s.sess? f.src).isNone then { s := s }
      else
        let r := drainReorder 4096 (tabSet x.reorder q m) x.rcvNxt
        let now := s.peerClock x.port
        let s := s.modSess f.src (fun y => { y with
          reorder := r.2.1, rcvNxt := r.2.2, unacked := y.unacked + 1, ackSince := some (y.ackSince.getD now) })
        let s := if d ≠ 0 then s.ackNow f.src
          else match s.sess? f.src with
            | some y => if 16 ≤ y.unacked then s.ackNow f.src else s
            | none => s
        { s := s, msgs := r.1 }

/-- Takes a frame of an established session from check 7 on (Table 10-7). -/
def State.receiveOn (s : State) (x : Sess) (f : Frame) (m : ColdonMsg) : Rx :=
  if !f.tagOk x.rxKey m then { s := s.modCport f.port (fun c => { c with gcmFail := c.gcmFail + 1 }) }
  else if x.replayed f then { s := s.modCport f.port (fun c => { c with replay := c.replay + 1 }) }
  else s.deliver x f m

/-- Takes a received frame through the checks of Table 10-7 (R239) and the delivery rules (R234, R235). A frame without a session whose body is malformed is
discarded as it is taken. -/
def State.receive (s : State) (f : Frame) (m : ColdonMsg) : Rx :=
  let bump := fun (g : CPort → CPort) => s.modCport f.port g
  match s.linkCheck f with
  | some g => { s := bump g }
  | none =>
    if !f.headOk || f.dst != s.pb.moduleId then { s := bump (fun c => { c with hchkFail := c.hchkFail + 1 }) }
    else if !f.enc then
      if f.typ == 0x01 || f.typ == 0x02 || f.typ == 0x08 then
        { s := bump (fun c => { c with rx := c.rx + 1 }), msgs := if f.bodyOk m && !f.seqd then [m] else [] }
      else { s := bump (fun c => { c with unknown := c.unknown + 1 }) }
    else
      match s.cld.sessions.find? (fun x => x.lsid == f.session && x.peer == f.src),
          (if f.typ = 0x03 then s.cld.half.find? (fun h => h.lsid == f.session && h.peer == f.src && h.responder) else none) with
      | _, some h =>
        if f.tagOk h.rxKey m then { s := bump (fun c => { c with rx := c.rx + 1 }), msgs := if f.bodyOk m && !f.seqd then [m] else [] }
        else { s := bump (fun c => { c with gcmFail := c.gcmFail + 1 }) }
      | some x, none => s.receiveOn x f m
      | none, none => { s := (bump (fun c => { c with unknown := c.unknown + 1 })).nak f }

end Sys2Proof.Machine
end

