-- ==== Sys2Proof/Machine/DramCtl.lean ====
section
/-! DEFINITION. The near-tier and deep-tier memory controllers: what their registers show and targeted refresh (R253, R256 to R267, R270). -/

namespace Sys2Proof.Machine

/-- The domain counter of a controller: DEEP, or NEAR of the stack's die. -/
def State.ctlClock (s : State) : Ctl → Nat
  | .deep _ => s.clk.deep
  | .near n => if n < 8 then s.clk.near.1 else s.clk.near.2

/-- Cycles per µs of a controller's domain (Table 1-8). -/
def ctlMhz : Ctl → Nat
  | .deep _ => 1800
  | .near _ => 1600

/-- A controller exists and runs. -/
def State.ctlOk (s : State) : Ctl → Bool
  | .deep p => s.dataUp && decide (p < 8)
  | .near n => s.dataUp && decide (n < 16) && s.stackOk n

/-- Rank k of a channel pair (R261) as a subchannel-rank of the module. -/
def srOfPair (pair k : Nat) : Nat := 16 * (pair / 2) + 8 * (pair % 2) + k

/-- Index k of a controller is in service: a rank that is not retired, a pseudo-channel that is not (R284, R285). -/
def State.kOk (s : State) : Ctl → Nat → Bool
  | .deep p, k => decide (k < 8) && s.rankOk (srOfPair p k)
  | .near n, k => decide (k < 32) && s.pcOk n k

/-- DCTL_XLATE_OUT of a pair: the translation of DCTL_XLATE_MA, once that has been written (Table 12-9). -/
def State.xlateOut (s : State) (pair : Nat) : Nat :=
  let ma := (s.ctl (.deep pair)).xlateMa
  if (s.ctl (.deep pair)).xlateDone && decide (ma < s.deepUser) then
    let d := dramAddr s.variant ma
    2 ^ 63 + fld d.sr 6 50 + fld d.cid 3 47 + fld d.bg 3 44 + fld d.ba 2 42 + fld d.row 17 25 + fld d.col 11 14
  else 0

/-- Takes an address to translate (Table 12-8). -/
def State.setXlateMa (s : State) (pair v : Nat) : State := s.modCtl (.deep pair) (fun d => { d with xlateMa := v % 2 ^ 46, xlateDone := true })

/-- DCTL_TSET[k] (Tables 12-10, 12-11). -/
def tset (k : Nat) : Nat :=
  let r := [(7020, 738, 58, 29, 29, 29), (5460, 574, 45, 23, 23, 23), (3900, 410, 32, 16, 16, 16), (3120, 328, 26, 13, 13, 13)]
  match r[k]? with
  | some (refi, rfc, ras, rp, rcd, cl) => fld refi 16 48 + fld rfc 12 36 + fld ras 8 28 + fld rp 8 20 + fld rcd 8 12 + fld cl 8 4
  | none => 0

/-! ### Row trackers (R266, R267) -/

/-- TARGETED_REFRESH: the count of a tracked row has reached RD_MIT; its neighbours are refreshed, and at the deep tier its candidate is
credited and may be named an offender (R253, R266, R267). -/
def execTargetedRefresh (c : Ctl) (bank row : Nat) (s : State) : Out :=
  let d := s.ctl c
  match (tabGet [] d.trackers bank).find? (fun e => e.row == row && decide (d.rdMit ≤ e.count)) with
  | none => .next s
  | some e =>
    let s := s.modCtl c (fun x => { x with
      trackers := tabMod [] x.trackers bank (fun es => es.map (fun y => if y.row == row then { y with count := 0 } else y)),
      cntTargeted := x.cntTargeted + 1 })
    match c with
    | .near _ => .next s
    | .deep pair =>
      if e.vote = 0 ∨ e.cand = actMaint then .next s
      else
        let n := tabGet 0 d.credits e.cand + 1
        if n < d.rdOffender then .next (s.modCtl c (fun x => { x with credits := tabSet x.credits e.cand n }))
        else
          let s := s.modCtl c (fun x => { x with credits := tabSet x.credits e.cand 0, cntOffenders := x.cntOffenders + 1 })
          let s := { s with bud := { s.bud with
            throttles := s.bud.throttles.filter (fun (t : Throttle) => !(t.pair == pair && t.act == e.cand)) ++
              [({ pair := pair, act := e.cand, left := s.pb.throttleWindows } : Throttle)] } }
          .next (s.logEv .throttle (if e.cand < 64 then e.cand else 0xFF) e.cand 0 pair)

end Sys2Proof.Machine
end

