-- ==== Sys2Proof/Machine/HostOps.lean ====
section
/-! DEFINITION. Host-port operations: HDM decoders, the snoop filter, back-invalidate, dead hosts, responses and request entries (R36 to R54, R77). -/

namespace Sys2Proof.Machine

/-- A line of all ones (R42, R56). -/
def onesLine : Bytes := List.replicate 64 0xFF

/-! ### IDE streams (R55, R56) -/

def State.ide (s : State) (port : Nat) (st : IdeStream) : Ide :=
  match st with
  | .cachemem => (s.port port).cachemem
  | .ioLink => (s.port port).ioLink
  | .selective n => tabGet {} (s.port port).selective n

def State.modIde (s : State) (port : Nat) (st : IdeStream) (f : Ide → Ide) : State :=
  s.modPort port (fun p => match st with
    | .cachemem => { p with cachemem := f p.cachemem }
    | .ioLink => { p with ioLink := f p.ioLink }
    | .selective n => { p with selective := tabMod {} p.selective n f })

/-- A MAC check fails on a stream of a port: its flits are discarded and the stream becomes Insecure (R56). -/
def State.macFail (s : State) (port : Nat) (st : IdeStream) : State :=
  ((s.modIde port st (fun x => { x with st := .insecure })).emit (.aer port)).logEv .ideInsecure 0xFF (16 * port) 1 0

/-- A stream of a port whose link is in L0 is Secure: a MAC check can fail on it. -/
def State.macChecked (s : State) (port : Nat) (st : IdeStream) : Bool := (s.port port).link == .l0 && (s.ide port st).st == .secure

/-! ### HDM decoders (R41, R42) -/

/-- The DPA at which a decoder's span begins: the skips up to it and the spans before it, as CXL 3.1 lays decoders out. -/
def dpaBase (ds : Tab Decoder) (idx : Nat) : Nat :=
  ((List.range (idx + 1)).map (fun j =>
    let d := tabGet {} ds j
    d.skip + (if j < idx then d.size / max d.ways 1 else 0))).sum

/-- DPA of an HPA within a decoder: the interleave of `ways` by `gran` removed. -/
def decoderDpa (ds : Tab Decoder) (idx hpa : Nat) : Nat :=
  let d := tabGet {} ds idx
  let off := hpa - d.base
  let g := max d.gran 1
  dpaBase ds idx + off / (g * max d.ways 1) * g + off % g

/-- The committed decoder that an HPA matches. -/
def Ld.match? (l : Ld) (hpa : Nat) : Option Nat :=
  (l.decoders.find? (fun x => x.2.committed && decide (x.2.base ≤ hpa) && decide (hpa < x.2.base + x.2.size))).map (·.1)

/-- Where a DPA falls: its window, the offset in it, the address at the tag pipelines, and the line. -/
structure Tgt where
  span : Span
  off : Nat
  dpa : Nat
  line : Nat
deriving DecidableEq, Repr

/-- Resolves a DPA of an LD (R39). -/
def State.resolveDpa (s : State) (i dpa : Nat) : Option Tgt :=
  ((s.pb.layout i).find? (fun x => decide (x.base ≤ dpa) && decide (dpa < x.base + x.size))).map (fun x =>
    { span := x, off := dpa - x.base, dpa := dpa, line := (x.rng.addr x.idx (dpa - x.base)) / 64 })

/-- Resolves an HPA of an LD through its committed decoders (R41). A DPA that a decoder gives and no range or aperture holds is unmapped too: the spec names
no answer for it (DESIGN CHOICE, log 98). -/
def State.resolveHpa (s : State) (i hpa : Nat) : Option Tgt :=
  let l := s.ld i
  match l.match? hpa with
  | none => none
  | some k => s.resolveDpa i (decoderDpa l.decoders k hpa)

/-! ### Charges and responses -/

/-- Reads a line of a resident block: its sectors when it is coded, the line otherwise (R134). -/
def State.nearHit (s : State) (line act : Nat) : State :=
  match s.ent? (line / 64) with
  | some e => if e.mode = modeGolas then s.useNear (line / 64) 0 (4 * e.sectors) act else s.useNear (line / 64) (line % 64) 1 act
  | none => s.useNear (line / 64) (line % 64) 1 act

/-- DevLoad of an LD in its port's running window (R54). -/
def State.devLoadOf (s : State) (port ld : Nat) : Nat := tabGet 0 (s.port port).devLoad ld

/-- Sends a data response (R44, R51, R54): 64 bytes of HOST_EGRESS of the LD. The module stores no host meta-state, so its MetaField is No-Op on every range
(R44 says so of HDM-H; of HDM-DB, DEDUCED, log 66). -/
def State.respond (s : State) (port ld tag : Nat) (data : Bytes) (poison : Bool) : State :=
  (s.charge clsHost port (actLd (ldIdx port ld)) 64).emit (.memData port ld tag data poison .noOp (s.devLoadOf port ld))

/-- A line is returned with poison: the response is reported to its partition as a General Media record and to the callboard, by the record that names an
uncorrectable value of the tier it comes from, at severity 2 (R51, R289; DESIGN CHOICE, log 129). `cav`: its cavern address when another tier holds it. -/
def State.reportPoison (s : State) (part line : Nat) (cav : Option Nat) : State :=
  match cav with
  | some c => s.logRas { event := 0x03, sev := 2, level := 0, part := part, addr := 2 ^ 63 + c % 2 ^ 58 }
  | none =>
    match s.nearFind (line / 64), s.placeOf (line / 64) with
    | some _, some (r, t) => s.logRas { event := 0x09, sev := 2, level := 0, part := part, loc := nearLoc (2 * r + t % 2) (t / 2 % 32), addr := 64 * line }
    | _, _ => s.logRas { event := 0x03, sev := 2, level := 0, part := part, loc := s.deepLoc (line / 64), addr := 64 * line }

/-- Sends Cmp (R44, R54). -/
def State.complete (s : State) (port ld tag : Nat) : State := s.emit (.memCmp port ld tag .noOp (s.devLoadOf port ld))

/-- Removes a waiting request. -/
def State.dropReq (s : State) (id : Nat) : State :=
  { s with host := { s.host with reqs := s.host.reqs.filter (fun r => r.id != id) } }

def State.addReq (s : State) (r : HostReq) : State :=
  { s with host := { s.host with reqs := s.host.reqs ++ [r] } }

/-- Request entries in use at a port (R53). -/
def State.entries (s : State) (port : Nat) : Nat :=
  (s.host.reqs.filter (fun r => r.port == port)).length

/-- An entry is free for a request of an LD: of its reserve of 32, or of the pool (R53). -/
def State.entryFree (s : State) (port ld : Nat) : Bool :=
  let enabled := ((s.pb.port? port).map (·.ldCount)).getD 1
  let inUse := s.host.reqs.filter (fun r => r.port == port)
  let own := (inUse.filter (fun r => r.ld == ld)).length
  let overflow := ((List.range enabled).map (fun l => (inUse.filter (fun r => r.ld == l)).length - 32)).sum
  decide (own < 32) || decide (overflow < 1024 - 32 * enabled)

/-! ### The snoop filter (R44, R49) -/

def State.snoopEnt (s : State) (line : Nat) : SnoopEnt := tabGet {} s.host.snoop line

/-- Sets an entry; an entry with no holder is freed. -/
def State.putSnoop (s : State) (line : Nat) (e : SnoopEnt) : State :=
  { s with host := { s.host with snoop := if e.holders.isEmpty then tabDel s.host.snoop line else tabSet s.host.snoop line e } }

/-- Records the state an LD holds a line in after its request (R44): Any or Shared makes it a holder, Invalid removes it, No-Op changes nothing.
A fifth holder switches the entry to broadcast (R49). -/
def State.setHolder (s : State) (line i : Nat) (mv : Meta) : State :=
  match mv with
  | .noOp => s
  | .invalid =>
    let e := s.snoopEnt line
    s.putSnoop line { e with holders := e.holders.filter (fun h => h.1 != i) }
  | mv =>
    let fresh := (tabFind s.host.snoop line).isNone
    let e := s.snoopEnt line
    let hs := e.holders.filter (fun h => h.1 != i) ++ [(i, mv)]
    -- a line it takes again is no longer one of a dead host (R50)
    let s := s.modLd i (fun l => { l with deadLines := setDel l.deadLines line })
    let s := s.putSnoop line { holders := hs, broadcast := e.broadcast || decide (4 < hs.length), seq := if fresh then s.host.snoopSeq else e.seq }
    if fresh then { s with host := { s.host with snoopSeq := s.host.snoopSeq + 1 } } else s

/-- The kind of an access for R49: a write or a request for Any, or another read. -/
inductive Snoops where
  | inv
  | data
deriving DecidableEq, Repr

/-- The LDs that a request of LD `own` must snoop before it is served (R49). `ldsOf` are the LDs that map the range. -/
def SnoopEnt.conflicts (e : SnoopEnt) (own : Option Nat) (k : Snoops) (lds : List Nat) : List Nat :=
  let others := e.holders.filter (fun h => own != some h.1)
  match k with
  | .inv => if others.isEmpty then [] else if e.broadcast then lds.filter (fun i => own != some i) else others.map (·.1)
  | .data =>
    let any := (others.filter (fun h => h.2 == .any)).map (·.1)
    if any.isEmpty then [] else if e.broadcast then lds.filter (fun i => own != some i) else any

/-- LDs whose DPA space holds the range of an address. -/
def State.mappers (s : State) (line : Nat) : List Nat :=
  match s.pb.ownerOf (64 * line) with
  | some (_, _, _, r) => (List.range 128).filter (fun i => bit r.ldMask i)
  | none => []

/-- BISnp sent and unanswered at a port. -/
def State.biOut (s : State) (port : Nat) : Nat :=
  (s.host.bi.filter (fun b => b.ldIdx / 16 == port && b.sentAt.isSome)).length

/-- Sends a BISnp to an LD, once; beyond 256 outstanding at the port it waits in the egress queue (R49) (DEDUCED, log 99). -/
def State.sendSnp (s : State) (line i : Nat) (k : Snoops) : State :=
  if s.host.bi.any (fun b => b.line == line && b.ldIdx == i) then s
  else
    let inv := decide (k = .inv)
    if s.biOut (i / 16) < 256 then
      ({ s with host := { s.host with bi := s.host.bi ++ [{ line := line, ldIdx := i, inv := inv, sentAt := some s.clk.hmesh }] } } : State).emit
        (.biSnp (i / 16) (i % 16) line inv)
    else { s with host := { s.host with bi := s.host.bi ++ [{ line := line, ldIdx := i, inv := inv, sentAt := none }] } }

/-- Sends the BISnp that waited, as far as the ports' limits allow. -/
def State.pumpSnp (s : State) : State :=
  s.host.bi.foldl (fun s b =>
    if b.sentAt.isNone && decide (s.biOut (b.ldIdx / 16) < 256) then
      ({ s with host := { s.host with bi := s.host.bi.map (fun x =>
          if x.line == b.line && x.ldIdx == b.ldIdx then { x with sentAt := some s.clk.hmesh } else x) } } : State).emit
        (.biSnp (b.ldIdx / 16) (b.ldIdx % 16) b.line b.inv)
    else s) s

/-- Snoops that a line still waits for. -/
def State.snoopPending (s : State) (line : Nat) : Bool := s.host.bi.any (fun b => b.line == line)

/-- Sends the BISnp that an access to a line needs, once those sent before for the line are answered; true when it must wait (R49). -/
def State.snoop (s : State) (line : Nat) (own : Option Nat) (k : Snoops) : Bool × State :=
  if s.snoopPending line then (true, s)
  else
    let c := (s.snoopEnt line).conflicts own k (s.mappers line)
    (!c.isEmpty, c.foldl (fun s i => s.sendSnp line i k) s)

/-- Snoops for every line of a span; true when the access must wait (R49, R108). -/
def State.snoopLines (s : State) (lines : List Nat) (own : Option Nat) (k : Snoops) : Bool × State :=
  -- only lines with an entry or an outstanding snoop can conflict
  (lines.filter (fun l => (tabFind s.host.snoop l).isSome || s.snoopPending l)).foldl
    (fun acc l => let r := acc.2.snoop l own k; (acc.1 || r.1, r.2)) (false, s)

/-- The entries of the filter that fall within a span of lines, and whether any access to them must wait. -/
def State.snoopSpan (s : State) (first n : Nat) (k : Snoops) : Bool × State :=
  s.snoopLines ((s.host.snoop.map (·.1) ++ s.host.bi.map (·.line)).filter (fun l => decide (first ≤ l) && decide (l < first + n))) none k

/-- Makes a way free for a line's entry: the least recently allocated entry of a full set is snooped out first (R49).
True when the request must wait for it. -/
def State.snoopRoom (s : State) (line : Nat) : Bool × State :=
  if (tabFind s.host.snoop line).isSome then (false, s)
  else
    let set := Config.snoopSet line % 262144
    let same := s.host.snoop.filter (fun e => Config.snoopSet e.1 % 262144 == set)
    if same.length < 16 then (false, s)
    else
      match same.foldl (fun (b : Option (Nat × SnoopEnt)) e => match b with
          | none => some e
          | some x => if e.2.seq < x.2.seq then some e else b) none with
      | none => (false, s)
      | some v =>
        let dest := if v.2.broadcast then s.mappers v.1 else v.2.holders.map (·.1)
        (true, if s.snoopPending v.1 then s else dest.foldl (fun s i => s.sendSnp v.1 i .inv) s)

/-! ### Dead hosts (R50, R77) -/

/-- Declares an LD dead: its holdings are released under the partition's orphan policy, counted and logged, and its snoops end (R50, R77). -/
def State.declareDead (s : State) (i : Nat) : State :=
  let held := s.host.snoop.filter (fun e => e.2.holders.any (fun h => h.1 == i))
  let p := (s.pb.partOfLd i).getD 0xFF
  let stale := ((s.pb.part? p).map (·.orphanStale)).getD false
  let anyLines := if stale then [] else
    (held.filter (fun e => e.2.holders.any (fun h => h.1 == i && h.2 == .any))).map (·.1)
  let nAny := anyLines.length
  let nRest := held.length - nAny
  let s := held.foldl (fun s e => s.putSnoop e.1 { e.2 with holders := e.2.holders.filter (fun h => h.1 != i) }) s
  let s := anyLines.foldl (fun s l => s.setPoison l 0) s
  let s := { s with host := { s.host with bi := s.host.bi.filter (fun b => b.ldIdx != i) } }
  let s := s.modLd i (fun l => { l with dead := true, deadLines := setUnion l.deadLines (held.map (·.1)) })
  let s := if p = 0xFF then s else s.modPart p (fun x => { x with orphanPois := x.orphanPois + nAny, orphanStale := x.orphanStale + nRest })
  s.logEv .orphanLines p i nAny nRest

/-! ### Port and LD resets: what they share (R38, R80) -/

/-- Clears what a port or LD reset clears of an LD (Table 21-3 of chapter 3's matrix): decoders, MSI-X enable and pending bits, DOE sessions. -/
def State.resetLdConfig (s : State) (i : Nat) (table : Bool) : State :=
  s.modLd i (fun l => { l with
    decoders := [], msixEnable := false, funcMask := false, unmasked := if table then [] else l.unmasked, pend := [], spdm := [] })

end Sys2Proof.Machine
end

