-- ==== Sys2Proof/Machine/CueOps.lean ====
section
/-! DEFINITION. The cue sheet: states of cues, places, the curtain, selections, fills and cancellation (R94 to R105). -/

namespace Sys2Proof.Machine

/-! ### Partition addresses (R63) -/

def paRange (a : Nat) : Nat := bits a 63 56
def paOff (a : Nat) : Nat := a % 2 ^ 56

def State.modCue (s : State) (p : Nat) (f : CueSheet → CueSheet) : State := s.modPart p (fun x => { x with cue := f x.cue })

/-- Changes one cue of a sheet. -/
def CueSheet.modC (h : CueSheet) (i : Nat) (f : Cue → Cue) : CueSheet :=
  { h with cues := ((List.range h.cues.length).zip h.cues).map (fun x => if x.1 = i then f x.2 else x.2) }

/-- The cues of a sheet with their numbers. -/
def CueSheet.idx (h : CueSheet) : List (Nat × Cue) := (List.range h.cues.length).zip h.cues

/-- The curtain, with 0xFFFF read as LAYER_COUNT − 1 (R97). -/
def CueSheet.cur (h : CueSheet) : Nat := if h.curtain = 0xFFFF then h.layerCount - 1 else h.curtain

/-- Distance of a layer from a curtain (R97). -/
def CueSheet.distFrom (h : CueSheet) (layer cur : Nat) : Nat := (layer + h.layerCount - cur) % max h.layerCount 1

def CueSheet.dist (h : CueSheet) (c : Cue) : Nat := h.distFrom c.layer h.cur

/-- An alternative that is not promoted is an understudy (R98). -/
def Cue.understudy (c : Cue) : Bool := c.group != 0 && !c.promoted

def Cue.inPlace (c : Cue) : Bool := c.st == .fetching || c.st == .held || c.st == .late

/-- The cue has been cancelled or is done, or its pass has not begun. -/
def Cue.ended (c : Cue) : Bool := c.st == .done || c.st == .cancelled

/-- Layers of lookahead of a class (Table 4-5). -/
def Cue.layers (c : Cue) : Nat := 2 ^ c.look

/-- The address at this module's tag pipelines of block i of a cue. -/
def State.cueAddr (s : State) (p : Nat) (c : Cue) (i : Nat) : Option (PbRange × Nat × Nat) :=
  (s.pb.range? p (paRange c.addr)).map (fun r => (r, paRange c.addr, paOff c.addr + 4096 * i))

/-- Number of block i of a cue. -/
def State.cueBlk (s : State) (p : Nat) (c : Cue) (i : Nat) : Option Nat :=
  (s.cueAddr p c i).map (fun x => x.1.addr x.2.1 x.2.2 / 4096)

/-- Index of a block within a cue, when the cue names it. -/
def State.cueIndexOf (s : State) (p : Nat) (c : Cue) (blk : Nat) : Option Nat :=
  match s.cueBlk p c 0 with
  | none => none
  | some b => if b ≤ blk ∧ blk < b + c.blocks then some (blk - b) else none

/-- Order of R100 between two cues of a sheet: distance, ordinary cues first, weight, sheet order. -/
def CueSheet.before (h : CueSheet) (a b : Nat × Cue) : Bool :=
  let da := h.dist a.2
  let db := h.dist b.2
  if da ≠ db then decide (da < db)
  else if a.2.understudy != b.2.understudy then !a.2.understudy
  else if a.2.understudy && a.2.weight != b.2.weight then decide (b.2.weight < a.2.weight)
  else decide (a.1 < b.1)

/-- The first of some cues in the order of R100. -/
def CueSheet.first (h : CueSheet) (l : List (Nat × Cue)) : Option (Nat × Cue) :=
  l.foldl (fun b c => match b with
    | none => some c
    | some x => if h.before c x then some c else some x) none

/-- Enters LATE, counted in CUE_LATE (R105). -/
def CueSheet.enterLate (h : CueSheet) (i now : Nat) : CueSheet :=
  { h.modC i (fun c => { c with st := .late, lateSince := some now }) with late := h.late + 1 }

/-- Leaves LATE: its cycles are summed (Table 4-10). The spec does not say when a cue's time joins the sum: here when the cue leaves LATE, so a read of
CUE_LATE_US does not show the time of cues that are still in it (DESIGN CHOICE, log 137). -/
def CueSheet.leaveLate (h : CueSheet) (c : Cue) (now : Nat) : CueSheet :=
  match c.lateSince with
  | some t => { h with lateCycles := h.lateCycles + (now - t) }
  | none => h

/-- What follows of itself from a cue's progress: READY when every block is placed, WAITING for an understudy of weight 0 with no read outstanding,
HELD or LATE when due (Table 4-11). -/
def CueSheet.settleOne (h : CueSheet) (i now : Nat) : CueSheet :=
  match h.cues[i]? with
  | none => h
  | some c =>
    let full := decide (c.blocks ≤ c.placed.length)
    let due := h.dist c == 0 && h.curtain != 0xFFFF
    match c.st with
    | .fetching =>
      if full then h.modC i (fun c => { c with st := .ready })
      else if c.understudy && c.weight == 0 then (if c.out.isEmpty then h.modC i (fun c => { c with st := .waiting }) else h)
      else if due then (if c.understudy then h.modC i (fun c => { c with st := .held }) else h.enterLate i now)
      else h
    | .held =>
      if c.understudy then (if c.weight == 0 && c.out.isEmpty then h.modC i (fun c => { c with st := .waiting }) else h)
      else if full then h.modC i (fun c => { c with st := .ready })
      else h.enterLate i now
    | .late => if full then (h.modC i (fun c => { c with st := .ready, lateSince := none })).leaveLate c now else h
    | _ => h

/-- Gives free places to waiting cues in the order of R100; `n` bounds the places given. -/
def CueSheet.places : Nat → CueSheet → Nat → CueSheet
  | 0, h, _ => h
  | n + 1, h, now =>
    if 32 ≤ (h.cues.filter Cue.inPlace).length then h
    else match h.first (h.idx.filter (fun x => x.2.st == .waiting && !(x.2.understudy && x.2.weight == 0))) with
      | none => h
      | some x => CueSheet.places n ((h.modC x.1 (fun c => { c with st := .fetching })).settleOne x.1 now) now

/-- Brings a sheet to rest after a change. -/
def CueSheet.settle (h : CueSheet) (now : Nat) : CueSheet :=
  let h := (List.range h.cues.length).foldl (fun h i => h.settleOne i now) h
  h.places (h.cues.length + 1) now

/-- A cue of the partition has a read of the block outstanding: whether one is LATE (R105). -/
def State.cueOut (s : State) (p blk : Nat) : Option Bool :=
  let l := (s.part p).cue.idx.filter (fun x => match s.cueIndexOf p x.2 blk with
    | some k => x.2.out.contains k
    | none => false)
  if l.isEmpty then none else some (l.any (fun x => x.2.st == .late))

/-- The pinned slot of a region that an entry maps (R162, R180). -/
def State.pinSlot (s : State) (p : Nat) (x : PbRange) : Option Nat :=
  ((s.part p).pins.find? (fun a => a.rid == x.regionId)).map (·.slot)

/-- Slot of a cavern region that reads of a partition go to now: the pinned one of a VERSIONED region, slot 0 of a PRIVATE one (R162, R203). -/
def State.regionSlot (s : State) (p : Nat) (x : PbRange) : Nat := if x.kind = 2 then (s.pinSlot p x).getD 0 else 0

/-- A fill is allowed for a block: by its hint and the cue's target, and on a cavern range by R89; an understudy skips held lines (R103). -/
def State.cueMay (s : State) (p : Nat) (c : Cue) (r : PbRange) (idx off : Nat) : Bool :=
  let hint := s.hintAt r idx off
  let buffer := c.buffer && s.clusterOk c.cluster
  let first := r.addr idx off / 64
  (hint == 0 || hint == 1 || (hint == 3 && buffer)) &&
    (r.regionId == 0 || s.isSealed p idx || (s.pinSlot p r).isSome) &&
    !(c.understudy && r.kind == 1 && s.host.snoop.any (fun e => decide (first ≤ e.1) && decide (e.1 < first + 64)))

/-- A block that a staged operation waits for: a cue's read of it is outstanding, or an ordinary or promoted cue that is FETCHING or LATE has still to
issue it, as in Table 4-12. The answer says whether such a cue is LATE (R105) (DEDUCED, log 53). -/
def State.cueWaits (s : State) (p blk : Nat) : Option Bool :=
  match s.cueOut p blk with
  | some l => some l
  | none =>
    if (s.nearFind blk).isSome then none
    else
      let l := (s.part p).cue.cues.filter (fun c => !c.understudy && (c.st == .fetching || c.st == .late) && (match s.cueIndexOf p c blk with
        | some k => decide (c.issued ≤ k) && (match s.cueAddr p c k with
          | some x => s.cueMay p c x.1 x.2.1 x.2.2
          | none => false)
        | none => false))
      if l.isEmpty then none else some (l.any (fun c => c.st == .late))

/-- The waits of a partition's operations for cue fills: one for a block whose cue is LATE completes with LATE, and a wait ends with the last fill it is for
(R105). -/
def State.markLate (s : State) (p : Nat) : State :=
  { s with disp := { s.disp with ops := s.disp.ops.map (fun (o : Op) => match o.waitSince with
    | some t =>
      if o.part != p then o
      else
        let ws := o.waitBlks.filterMap (s.cueWaits p)
        if ws.isEmpty then { o with stall := o.stall + (s.clk.hmesh - t), waitSince := none, waitBlks := [] }
        else { o with late := o.late || ws.any (fun b => b) }
    | none => o) } }

def State.settleCue (s : State) (p : Nat) : State := (s.modCue p (fun h => h.settle s.clk.hmesh)).markLate p

/-! ### Cancellation (R104) -/

/-- A block is named by an understudy of the sheet, other than cue `i`, that is not cancelled. -/
def State.otherUnderstudy (s : State) (p i blk : Nat) : Bool :=
  (s.part p).cue.idx.any (fun x => x.1 != i && x.2.understudy && !x.2.cut && (s.cueIndexOf p x.2 blk).isSome)

/-- A block is named by an ordinary or promoted cue of the sheet. -/
def State.ordinaryNames (s : State) (p blk : Nat) : Bool :=
  (s.part p).cue.idx.any (fun x => !x.2.understudy && (s.cueIndexOf p x.2 blk).isSome)

/-- The read of a block is outstanding for an ordinary or promoted cue of the sheet: its fill is not an understudy's (R103). -/
def State.ordinaryReads (s : State) (p blk : Nat) : Bool :=
  (s.part p).cue.idx.any (fun x => !x.2.understudy && (match s.cueIndexOf p x.2 blk with
    | some k => x.2.out.contains k
    | none => false))

/-- Judges the SPEC blocks a cue named when it ends as an understudy: hit ones become CLEAN, shared ones stay, the others are dropped and
counted in CUE_WASTE_BLOCKS (R104). -/
def State.judgeSpec (s : State) (p i : Nat) (c : Cue) : State :=
  (s.mem.tags.filter (fun t => t.st == .spec && t.part == p && (s.cueIndexOf p c t.blk).isSome)).foldl (fun s t =>
    if t.hit then s.nearMod t.blk (fun t => { t with st := .clean })
    else if s.otherUnderstudy p i t.blk then s
    else (s.nearDel t.blk).modCue p (fun h => { h with waste := h.waste + 1 })) s

/-- The cavern reads that a cancelled cue has outstanding: one that another cue of the sheet waits for goes on for that cue, any other is discarded when it
arrives, and counted (R102). Room kept for its copies is given up. -/
def State.cutReads (s : State) (p i : Nat) (c : Cue) : State :=
  let heir := fun (k : Nat) => (s.cueBlk p c k).bind (fun blk => (s.part p).cue.idx.findSome? (fun x =>
    if x.1 = i then none else match s.cueIndexOf p x.2 blk with
      | some j => if x.2.out.contains j then some (x.1, j) else none
      | none => none))
  { s with
    cav := { s.cav with accs := s.cav.accs.map (fun (a : CvnAcc) => match a.who with
      | .cue q j k => if q = p ∧ j = i then { a with who := (match heir k with | some x => .cue p x.1 x.2 | none => .cueGone p) } else a
      | _ => a)
                        landing := s.cav.landing.map (fun (a : CvnAcc) => match a.who with
      | .cue q j k => if q = p ∧ j = i then { a with who := (match heir k with | some x => .cue p x.1 x.2 | none => .cueGone p) } else a
      | _ => a) }
    mem := { s.mem with cueArea := s.mem.cueArea.filter (fun (x : CueCopy) => !(x.part == p && x.cue == i && x.held.isNone)) } }

/-- Cancels cue i: outstanding reads are discarded, selection and weight changes are cleared, and its SPEC blocks are judged (R97, R104).
`abandoned`: counted in CUE_ABANDONED. -/
def State.cancelCue (s : State) (p i : Nat) (abandoned : Bool) : State :=
  let h := (s.part p).cue
  match h.cues[i]? with
  | none => s
  | some c =>
    let was := c.understudy
    let s := s.cutReads p i c
    let s := s.modCue p (fun h =>
      let h := h.leaveLate c s.clk.hmesh
      let h := h.modC i (fun c => { c with
        st := .cancelled, out := [], selected := false, promoted := false, weight := c.weight0, lateSince := none, issued := 0, placed := [], cut := true })
      if abandoned then { h with abandoned := h.abandoned + 1 } else h)
    -- a cancelled promoted alternative is no understudy: its blocks are CLEAN (R104)
    if was then s.judgeSpec p i c else s

/-- The sheet is discarded: its cues are cancelled, with those that had started counted when `count` says so (R78, R96) (DEDUCED, log 111). -/
def State.dropSheet (s : State) (p : Nat) (count : Bool) : State :=
  let n := (s.part p).cue.cues.length
  let s := (List.range n).foldl (fun s i =>
    match (s.part p).cue.cues[i]? with
    | some c => if c.ended then s else s.cancelCue p i (count && c.inPlace)
    | none => s) s
  let s := { s with mem := { s.mem with cueArea := s.mem.cueArea.map (fun (c : CueCopy) => if c.part == p then { c with cue := 2 ^ 32 } else c) } }
  s.modCue p (fun h => { h with loaded := false, layerCount := 0, curtain := 0xFFFF, cues := [], finals := [] })

/-! ### Curtain, selection, weights (R97 to R99) -/

/-- A cue as its next pass begins: from the sheet's values. -/
def Cue.fresh (c : Cue) : Cue :=
  { c with st := .idle, selected := false, promoted := false, weight := c.weight0, issued := 0, out := [], placed := [], lateSince := none }

/-- Promotes an alternative: its SPEC blocks become CLEAN (R98). -/
def State.promoteCue (s : State) (p i : Nat) : State :=
  match (s.part p).cue.cues[i]? with
  | none => s
  | some c =>
    let s := s.modCue p (fun h => h.modC i (fun c => { c with promoted := true, selected := true }))
    (s.mem.tags.filter (fun t => t.st == .spec && t.part == p && (s.cueIndexOf p c t.blk).isSome)).foldl
      (fun s t =>
        let s := s.nearMod t.blk (fun t => { t with st := .clean })
        match s.cueAddr p c 0 with
        | some (r, idx, off) =>
          if s.hintAt r idx (off + 4096 * ((s.cueIndexOf p c t.blk).getD 0)) = 1 then s.pinBlk t.blk else s
        | none => s) s

/-- A valid write of layer v to the curtain, v not equal to the current one (R97). A cue that the curtain passes, cancelled or not, is DONE with the
sheet's values until its next pass makes it eligible, so its group ignores selections and weights until then (R98, R99). -/
def State.moveCurtain (s : State) (p v : Nat) : State :=
  let h := (s.part p).cue
  let o := h.cur
  let span := h.distFrom v o
  let passed := h.idx.filter (fun x => decide (h.distFrom x.2.layer o < span))
  -- steps 1 and 2
  let s := passed.foldl (fun s x =>
    let c := x.2
    let s := if c.inPlace then s.cancelCue p x.1 true
      else if c.understudy && (c.st == .ready || c.st == .waiting) then s.cancelCue p x.1 false
      else s
    s.modCue p (fun h => h.modC x.1 (fun c => { c.fresh with st := .done, cut := c.cut }))) s
  let s := s.modCue p (fun h => { h with
    curtain := v, finals := h.finals.filter (fun f => !decide (h.distFrom f.1 o < span)) })
  -- steps 3 and 4
  let s := h.idx.foldl (fun s x =>
    match (s.part p).cue.cues[x.1]? with
    | none => s
    | some c =>
      let d := h.distFrom c.layer v
      if (c.st = .idle ∨ c.st = .done) ∧ d ≤ c.layers then
        let sel := c.selected
        let s := s.modCue p (fun h => h.modC x.1 (fun c => { c with st := .waiting, issued := 0, placed := [], out := [], cut := false }))
        if sel && !c.promoted then s.promoteCue p x.1 else s
      else s) s
  s.settleCue p

/-- The alternatives of a group of a layer, in sheet order (R95). -/
def CueSheet.group (h : CueSheet) (layer g : Nat) : List (Nat × Cue) := h.idx.filter (fun x => x.2.layer == layer && x.2.group == g)

/-- A CUE_SELECT or CUE_WEIGHT names a group that exists and is not DONE. -/
def CueSheet.groupOpen (h : CueSheet) (layer g : Nat) : Bool :=
  let a := h.group layer g
  g != 0 && !a.isEmpty && !(a.all (fun x => x.2.st == .done))

def State.badCue (s : State) (p : Nat) : State := s.modPart p (fun x => { x with badWrites := x.badWrites + 1 })

/-- CUE_SELECT (R98). -/
def State.cueSelect (s : State) (p layer g mask : Nat) (final : Bool) : State :=
  let h := (s.part p).cue
  if !h.groupOpen layer g || h.finals.contains (layer, g) then s.badCue p
  else
    let alts := (List.range (h.group layer g).length).zip (h.group layer g)
    let s := alts.foldl (fun s a =>
      if bit mask a.1 && a.2.2.st != .cancelled then
        (if a.2.2.st = .idle then s.modCue p (fun h => h.modC a.2.1 (fun c => { c with selected := true })) else s.promoteCue p a.2.1)
      else s) s
    let s := if final then
        alts.foldl (fun s a => match (s.part p).cue.cues[a.2.1]? with
          | some c => if c.promoted || c.selected || c.st = .cancelled then s else s.cancelCue p a.2.1 false
          | none => s) (s.modCue p (fun h => { h with finals := (layer, g) :: h.finals }))
      else s
    s.settleCue p

/-- CUE_WEIGHT (R99). -/
def State.cueWeight (s : State) (p layer g weights : Nat) : State :=
  let h := (s.part p).cue
  if !h.groupOpen layer g then s.badCue p
  else
    let alts := (List.range (h.group layer g).length).zip (h.group layer g)
    (alts.foldl (fun s a =>
      if a.2.2.understudy then s.modCue p (fun h => h.modC a.2.1 (fun c => { c with weight := bits weights (4 * a.1 + 3) (4 * a.1) })) else s) s).settleCue p

/-! ### Fills (R101, R103) -/

/-- Counts a block that a cue did not fill. -/
def State.skipBlk (s : State) (p : Nat) : State := s.modCue p (fun h => { h with skipped := h.skipped + 1 })

/-- Every cue of the sheet whose read of a block is outstanding counts it as placed (R105). Room kept for a copy that this read has not filled is given up. -/
def State.placeBlk (s : State) (p blk : Nat) : State :=
  let s := { s with mem := { s.mem with cueArea := s.mem.cueArea.filter (fun (x : CueCopy) => !(x.part == p && x.blk == blk && x.held.isNone)) } }
  (((s.part p).cue.idx).foldl (fun s x =>
    match s.cueIndexOf p x.2 blk with
    | some k => if x.2.out.contains k then
        s.modCue p (fun h => h.modC x.1 (fun c => { c with out := c.out.filter (· != k), placed := c.placed ++ [k] })) else s
    | none => s) s).settleCue p

/-- Sectors a copy in a cue area holds. -/
def State.copySectors (s : State) (c : CueCopy) : Nat := sectorsAbove (s.ent? c.blk)

/-- Room in a cluster's cue area for `need` sectors, after the oldest copies of cues that are done, cancelled or gone are overwritten (R101). -/
def State.cueRoom : Nat → State → Nat → Nat → Option State
  | 0, _, _, _ => none
  | n + 1, s, cl, need =>
    let mine := s.mem.cueArea.filter (fun c => c.cluster == cl)
    if (mine.map s.copySectors).sum + need ≤ 8192 then some s
    else
      match mine.find? (fun c => match (s.part c.part).cue.cues[c.cue]? with
          | some q => q.ended || q.st == .idle
          | none => true) with
      | none => none
      | some c => State.cueRoom n { s with mem := { s.mem with cueArea := s.mem.cueArea.filter (fun (x : CueCopy) => x != c) } } cl need

/-- Keeps room for a block in the cue area of a cue's cluster when it is a BUFFER cue and the cluster is in service; a copy that is there, or on its way, serves
both. None: the cue waits. -/
def State.bufferCopy (s : State) (p i : Nat) (c : Cue) (blk : Nat) : Option State :=
  if !c.buffer || !s.clusterOk c.cluster then some s
  else if s.mem.cueArea.any (fun x => x.cluster == c.cluster && x.blk == blk) then some s
  else (s.cueRoom (s.mem.cueArea.length + 1) c.cluster (sectorsAbove (s.ent? blk))).map (fun s =>
    { s with mem := { s.mem with cueArea := s.mem.cueArea ++ [{ cluster := c.cluster, part := p, cue := i, blk := blk }] } })

/-- A block is filled CLEAN when an ordinary or promoted cue names it, SPEC otherwise (R104). -/
def State.fillState (s : State) (p blk : Nat) : NearSt := if s.ordinaryNames p blk then .clean else .spec

/-- The BUFFER cues of the sheet whose read of a block is outstanding get their copies from the one read (R101, R105). -/
def State.fillCopies (s : State) (p blk : Nat) (held : Bytes × NSet) : State :=
  -- room given up with the cue that kept it is kept again here
  let s := ((s.part p).cue.idx.filter (fun x => match s.cueIndexOf p x.2 blk with
    | some k => x.2.out.contains k
    | none => false)).foldl (fun s x => (s.bufferCopy p x.1 x.2 blk).getD s) s
  { s with mem := { s.mem with cueArea := s.mem.cueArea.map (fun (x : CueCopy) =>
      if x.part == p && x.blk == blk && x.held.isNone then { x with held := some held } else x) } }

/-- Places a block that is in hand into the near tier and the cue areas (R101, R103). `fill` allocates it in the near tier; a read that only understudies wait
for takes room as R103 allows, and never pins. -/
def State.cuePut (s : State) (p : Nat) (c : Cue) (blk hint : Nat) (held : Bytes × NSet) (fill : State → NearSt → (pin own : Bool) → Option State) : State :=
  let s := s.fillCopies p blk held
  let toNear := !(hint == 3 && c.buffer && s.clusterOk c.cluster)
  let ordinary := s.ordinaryReads p blk
  let pin := hint == 1 && ordinary
  let s := if !toNear || (s.nearFind blk).isSome then s
    else if hint = 2 ∨ hint = 3 then s.skipBlk p
    else match fill s (s.fillState p blk) pin (!ordinary) with
      | some s => s.useNear blk 0 (4 * sectorsAbove (s.ent? blk)) (actCue p)
      | none => (s.noRoom blk p pin).skipBlk p
  s.placeBlk p blk

/-- A block as it lies in the near tier, for a copy of it. -/
def State.nearHeld (s : State) (blk sectors : Nat) : Bytes × NSet := (memBytes s.mem.near (4096 * blk) (256 * sectors), s.mem.nearPoison.filter (fun l => l / 64 == blk))

end Sys2Proof.Machine
end

