-- ==== Sys2Proof/Machine/OpBase.lean ====
section
/-! DEFINITION. Operation slots: lookup, change, the end of an operation's work, its completion and interrupt (R68, R72, R73, R75, R163 to R165). -/

namespace Sys2Proof.Machine

def State.op? (s : State) (id : Nat) : Option Op := s.disp.ops.find? (fun o => o.id == id)

def State.modOp (s : State) (id : Nat) (f : Op → Op) : State :=
  { s with disp := { s.disp with ops := s.disp.ops.map (fun o => if o.id == id then f o else o) } }

/-- RESULT of a completion: 0 for details 1 to 11 and for CAP_DEFERRED (R73, R165). -/
def resultOf (status detail result : Nat) : Nat :=
  if (1 ≤ detail ∧ detail ≤ 11) ∨ status = stCapDeferred then 0 else result % 2 ^ 32

/-- Status and detail of an operation whose data was closed short: TRUNCATED ranks directly after PEER_UNREACHABLE (R164, R362). -/
def closedShort (truncated : Bool) (status detail : Nat) : Nat × Nat :=
  if truncated && [stOk, stConflict, stTableStale, stPoisoned, stOutOfBounds].contains status then (stTruncated, dtNone) else (status, detail)

/-- What every operation that moves data runs on has lost some of it: the link between the compute dies, near-tier pseudo-channels, deep-tier ranks
(R18, R20) (DEDUCED, log 103). -/
def State.memReduced (s : State) : Bool := s.ras.d2dDown.contains .aB || decide (s.pcs < 512) || decide (s.ranksIn < 64)

/-- Operations that move no data of memory: NOP, FENCE, ACQUIRE, RELEASE. -/
def movesData (opcode : Nat) : Bool := !([0x00, 0x01, 0x41, 0x42].contains opcode)

/-- Ends an operation's work; its completion is written when its end is reported (R73). -/
def State.endOp (s : State) (id status detail result : Nat) : State :=
  let red := s.memReduced
  s.modOp id (fun o => if o.phase = .ended then o else
    let e := closedShort o.truncated status detail
    { o with phase := .ended, degraded := o.degraded || (o.started && movesData o.opcode && red), status := e.1, detail := e.2, result := resultOf e.1 e.2 result, got := [], asked := [], work := [] })

/-- A 16-bit field of OP_FLAGS. -/
def Op.flags (o : Op) : Nat := leAt o.desc 6 2

/-- A field of the descriptor. -/
def Op.fieldAt (o : Op) (off n : Nat) : Nat := leAt o.desc off n

/-- The range-list entry a SEAL, UNSEAL or region operation names. -/
def Op.entry (o : Op) : Nat :=
  if o.opcode = 0x40 then o.fieldAt 56 1 else if o.opcode = 0x41 then o.fieldAt 32 1 else o.fieldAt 16 1

/-- Operations of a partition that are admitted and not completed (PART_SLOTS.INFLIGHT). -/
def State.opsOf (s : State) (p : Nat) : List Op := s.disp.ops.filter (fun o => o.part == p)
/-! ### Completion interrupts (R75, R76) -/

/-- COAL_COUNT and COAL_TIME of a vector of a partition; a vector with no entry fires with each completion (R75, R329) (DEDUCED, log 68). -/
def State.coalCfg (s : State) (p v : Nat) : Nat × Nat :=
  match s.pb.vectors.find? (fun x => x.part == p && x.vector == v) with
  | some x => (x.coalCount, x.coalTime)
  | none => (1, 0)

/-- A completion vector fires: what was counted for it starts anew (R75). -/
def State.fireVector (s : State) (i v : Nat) : State :=
  ({ s with disp := { s.disp with coal := s.disp.coal.filter (fun (c : Coal) => !(c.ldIdx == i && c.vector == v)) } } : State).msix i v none

/-- Counts a completion toward its ring's vector (R75, R76). -/
def State.countCompletion (s : State) (r : PbRing) (status : Nat) : State :=
  if (s.ring r.ring).mask then s.modRing r.ring (fun x => { x with maskedInt := true })
  else
    let cfg := s.coalCfg r.part r.vector
    let old := s.disp.coal.find? (fun c => c.ldIdx == r.intLd && c.vector == r.vector)
    let n := (old.map (·.count)).getD 0 + 1
    if status ≠ stOk ∨ cfg.1 ≤ n ∨ cfg.2 = 0 then s.fireVector r.intLd r.vector
    else
      let rest := s.disp.coal.filter (fun (c : Coal) => !(c.ldIdx == r.intLd && c.vector == r.vector))
      let new : Coal := { ldIdx := r.intLd, vector := r.vector, count := n, since := (old.map (·.since)).getD s.clk.hmesh }
      { s with disp := { s.disp with coal := rest ++ [new] } }

/-! ### What may be fetched (R68) -/

def PromptBook.ringOf? (b : PromptBook) (p r : Nat) : Option PbRing := (b.ring? r).filter (fun x => x.part == p)

/-- Descriptors posted on a ring and not fetched. -/
def Ring.posted (x : Ring) : Nat := (x.sqTail + 65536 - x.sqHead) % 65536

/-- Operations of a ring now admitted (RING_STATUS.INFLIGHT). -/
def State.ringOps (s : State) (r : Nat) : Nat := (s.disp.ops.filter (fun o => o.ring == r)).length

/-- A slot of the partition's reserve is free. -/
def State.reserveFree (s : State) (p : Nat) : Bool := decide ((s.opsOf p).length < ((s.pb.part? p).map (·.slotsMin)).getD 0)

/-- A slot of the shared pool is free: the 768 slots less every reserve. -/
def State.poolFree (s : State) : Bool :=
  let reserved := (s.pb.partitions.map (fun (p : PbPart) => p.slotsMin)).sum
  let used := (s.pb.partitions.map (fun (p : PbPart) => (s.opsOf p.num).length - p.slotsMin)).sum
  decide (used < 768 - reserved)

/-- The conditions of R68 hold for the next descriptor of a ring. -/
def State.mayFetch (s : State) (r : PbRing) : Bool :=
  let x := s.ring r.ring
  let n := s.ringOps r.ring
  (s.part r.part).st == 0 && x.st == 0 && x.posted != 0 && decide (n < r.maxInflight) &&
    decide ((x.cqTail + n + 65536 - x.cqHead) % 65536 < 2 ^ r.cqLog2) && (s.reserveFree r.part || s.poolFree)

/-- Notes the HMESH cycle in which the conditions first hold for a ring's next descriptor. -/
def State.noteEligible (s : State) : State :=
  s.pb.rings.foldl (fun s r =>
    if (s.ring r.ring).eligibleAt.isNone && s.mayFetch r then s.modRing r.ring (fun x => { x with eligibleAt := some s.clk.hmesh }) else s) s

/-! ### The end of an operation (R72, R73, R75) -/

/-- An operation has completed, or stops: those that wait for it learn its status (R72). -/
def State.releaseDeps (s : State) (id : Nat) (ok : Bool) : State :=
  { s with disp := { s.disp with ops := (s.disp.ops.filter (fun (o : Op) => o.id != id)).map (fun (o : Op) =>
      if o.waits.contains id then { o with waits := o.waits.filter (· != id), depFailed := o.depFailed || !ok } else o) } }

/-- The completion of an operation stands in its slot: CQ_TAIL counts it, its slot is free, those that wait for it go on, and it counts toward its
vector (R68, R72, R73, R75). -/
def State.completed (s : State) (id : Nat) : State :=
  match s.op? id with
  | none => s
  | some o =>
    let s := (s.modRing o.ring (fun x => { x with
        cqTail := (x.cqTail + 1) % 65536
        lost := if o.status = stOk then x.lost else setAdd x.lost o.idx })).releaseDeps id (o.status == stOk)
    match s.pb.ring? o.ring with
    | some r => (if o.int then s.countCompletion r o.status else s).noteEligible
    | none => s

end Sys2Proof.Machine
end

