-- ==== Sys2Proof/Machine/Grants.lean ====
section
/-! DEFINITION. What the channel pairs grant: the requests that wait, their levels, panic, the drain of writes, throttles and pauses (R246 to R249, R253, R262, R268 to R272).
A near-tier controller and a CXL port grant each request of the model when it comes: no two wait there at once (DESIGN CHOICE, log 106). -/

namespace Sys2Proof.Machine

/-- Bytes that a pair grants in a window at an operating point (Table 12-3). -/
def opBytes (op : Nat) : Nat := if op = 0 then 1179648 else if op = 1 then 917504 else if op = 2 then 655360 else 524288

/-- The window of a pair has no room left at its operating point (R272). -/
def State.pairFull (s : State) (pair : Nat) : Bool := decide (opBytes (s.ctl (.deep pair)).opCur ≤ s.usedAt clsDeep pair)

/-- Grants for a block are stopped at its pair: it changes frequency or its window is full, or the block's rank is refreshed, locates a device, or waits for the erase sweep
(R262, R271, R272, R277, R324). -/
def State.deepHeld (s : State) (blk : Nat) : Bool :=
  let k := s.rankOf blk
  let c := s.ctl (.deep (pairOfRank k))
  c.changing || setHas c.running (k % 8) || s.pairFull (pairOfBlk blk) || (s.rank k).locating.isSome || s.eraseFull blk

/-- Writes drain ahead of the reads of a block's subchannel (R268). -/
def State.drains (s : State) (blk : Nat) : Bool := setHas s.mem.draining (subOf blk)

/-- A read of `n` bytes of a block is not granted now: grants are stopped, writes drain, or a throttle leaves the activity nothing more in this window (R253, R268). -/
def State.deepStopped (s : State) (blk act n : Nat) : Bool := s.deepHeld blk || s.drains blk || !s.mayGrant (pairOfBlk blk) act n

/-! ### Requests that wait at a pair -/

/-- A request at a channel pair: the line, the activity, and whether it reads. -/
structure DeepAsk where
  line : Nat
  act : Nat
  rd : Bool
deriving DecidableEq, Repr

/-- Blocks of this module's deep tier that the cues of a partition wait for. -/
def State.cueAsks (s : State) (p : Nat) : List Nat :=
  (s.part p).cue.cues.flatMap (fun c => c.out.filterMap (fun k =>
    match s.cueAddr p c k with
    | some (r, idx, off) =>
      let blk := r.addr idx off / 4096
      if r.regionId = 0 ∧ s.cueMay p c r idx off ∧ (s.nearFind blk).isNone ∧ !(r.kind = 1 && !c.understudy && (s.snoopSpan (64 * blk) 64 .data).1)
      then some blk else none
    | none => none))

/-- The requests that wait at a pair and that nothing stops: loads, cue fills, and writes of the merge buffer. -/
def State.deepAsks (s : State) (pair : Nat) : List DeepAsk :=
  let open' := fun blk => !s.ras.recov.any (fun x => x.block == blk)
  let loads := s.host.reqs.filterMap (fun r => if r.wait = .deep ∧ pairOfBlk (r.line / 64) = pair then some { line := r.line, act := r.part, rd := true } else none)
  let cues := s.pb.partitions.flatMap (fun x => (s.cueAsks x.num).filterMap (fun b =>
    if pairOfBlk b = pair then some { line := 64 * b, act := actCue x.num, rd := true } else none))
  let writes := (s.mergeQ pair).map (fun e => ({ line := e.line, act := e.act, rd := false } : DeepAsk))
  (loads ++ cues).filter (fun a => open' (a.line / 64) && !s.deepStopped (a.line / 64) a.act 4096) ++
    writes.filter (fun a => !s.deepHeld (a.line / 64) && s.mayGrant pair a.act 128)

/-- The return queue of a master for the channel of a block holds fewer than PANIC_LOW sixteenths of its 64 entries (R269, Table 18-1). -/
def State.queueLow (s : State) (blk m : Nat) : Bool :=
  let pair := pairOfBlk blk
  decide (16 * (s.wqueue (24 + 3 * (2 * pair + bits (srHash blk) 2 2) + m)).level < 64 * (s.ctl (.deep pair)).panicLow)

/-- Bytes that a master may be granted at PANIC in a window: PANIC_CAP sixty-fourths of its reservation share at the pair (R269). -/
def State.panicLimit (s : State) (pair m : Nat) : Nat :=
  (s.ctl (.deep pair)).panicCap * ((s.masterActs m).map (s.shareAt clsDeep pair)).sum / 64

/-- A request is granted at PANIC: its master's return queue runs low while it has reads waiting at the controller, and its limit is not reached (R269). -/
def State.panics (s : State) (asks : List DeepAsk) (a : DeepAsk) : Bool :=
  let blk := a.line / 64
  match s.masterOf a.act with
  | none => false
  | some m =>
    s.queueLow blk m && decide (tabGet 0 (s.ctl (.deep (pairOfBlk blk))).panicUse m < s.panicLimit (pairOfBlk blk) m) &&
      asks.any (fun x => x.rd && s.masterOf x.act == some m && (srHash (x.line / 64)) / 4 == srHash blk / 4)

/-- A PANIC request waits at a pair, for a subchannel or rank that `at_` picks. -/
def State.panicWaits (s : State) (pair : Nat) (at_ : Nat → Bool) : Bool :=
  let asks := s.deepAsks pair
  asks.any (fun a => at_ (a.line / 64) && s.panics asks a)

/-- An RT or PANIC request waits for a rank of a pair (R262). -/
def State.rtWaits (s : State) (pair k : Nat) : Bool :=
  let asks := s.deepAsks pair
  asks.any (fun a => s.rankOf (a.line / 64) % 8 == k && decide (2 ≤ s.levelOf clsDeep pair a.act (s.panics asks a)))

/-- The pair grants a request of this kind next (R246). -/
def State.deepTurn (s : State) (a : DeepAsk) : Bool :=
  let pair := pairOfBlk (a.line / 64)
  let asks := s.deepAsks pair ++ [a]
  s.grantee clsDeep pair (asks.map (fun x => (x.act, s.panics asks x))) == some a.act

/-- Another access to a line of the same row of the same block is queued, and its activation serves both (R257). The activation counts with the last of them: the spec does not
say to which activity a shared one counts (DESIGN CHOICE, log 147). -/
def State.rowQueued (s : State) (a : DeepAsk) : Bool :=
  decide (2 ≤ ((s.deepAsks (pairOfBlk (a.line / 64))).filter (fun x => x.line / 64 == a.line / 64 && x.line % 32 == a.line % 32)).length)

/-- A pair grants a request: `n` lines of its block from line i (R241, R257, R269). -/
def State.grantDeep (s : State) (a : DeepAsk) (i n : Nat) : State :=
  let blk := a.line / 64
  let pair := pairOfBlk blk
  let panic := s.panics (s.deepAsks pair ++ [a]) a
  let row := n ≤ 2 && s.rowQueued a
  let s := (if row then s.chargeDeep blk a.act (64 * n) else if n ≤ 2 then (s.chargeDeep blk a.act (64 * n)).activateDeep a.line a.act else s.useDeep blk i n a.act).served
    clsDeep pair a.act
  if !panic then s
  else s.modCtl (.deep pair) (fun c => { c with
    panicUse := tabMod 0 c.panicUse ((s.masterOf a.act).getD 0) (· + 64 * n), cntPanicBytes := c.cntPanicBytes + 64 * n })

/-! ### Operations at the pairs and at the issue logic -/

/-- The pairs let an operation have what it reads of them: `need` in bytes by pair, `blks` the blocks. It waits while grants are stopped, and while a request that waits at
one of the pairs comes before it; at a pair where its activity is throttled it is granted what the throttle leaves, window by window (R246, R253, R271). -/
def State.opGrant (s : State) (id : Nat) (act : Nat) (blks : List Nat) (need : Tab Nat) : Bool × State :=
  if blks.any (fun b => s.deepHeld b || s.drains b || !s.deepTurn { line := 64 * b, act := act, rd := true }) then (false, s)
  else
    let r := need.foldl (fun acc x =>
      match acc.2.throttle? x.1 act, acc.2.op? id with
      | some t, some o =>
        let had := tabGet 0 o.paid x.1
        let left := acc.2.pb.throttleCap - (acc.2.useAt clsDeep x.1 t.act + (if t.act < 64 then acc.2.useAt clsDeep x.1 (actCue t.act) else 0))
        let pay := min (x.2 - had) left
        let s := (acc.2.modOp id (fun o => { o with paid := tabSet o.paid x.1 (had + pay) })).charge clsDeep x.1 act pay
        (acc.1 && decide (x.2 ≤ had + pay), s)
      | _, _ => acc) (true, { s with bud := { s.bud with credit := [] } })
    -- what it has been charged here is not charged again when it runs
    let paid := ((r.2.op? id).map (·.paid)).getD []
    (r.1, if r.1 then { r.2 with bud := { r.2.bud with credit := paid.map (fun x => (budKey clsDeep x.1 act, x.2)) } } else r.2)

/-- The issue class of a staged operation: matrix for GEMM and SIMSEARCH, vector for RECIPE, OPTIM and REDUCE (R137, R194). -/
def issueCls (code : Nat) : Option Nat :=
  if code = 0x20 ∨ code = 0x38 then some clsMatrix else if code = 0x21 ∨ code = 0x22 ∨ code = 0x28 then some clsVector else none

/-- A cluster whose window has slots of a class left (R254). -/
def State.openCluster (s : State) (cls : Nat) : Option Nat :=
  (List.range 64).find? (fun c => decide (s.usedAt cls c < (s.basis cls c).slots) && decide (0 < s.capNow cls c))

/-- The partitions with an operation waiting for slots of a class. -/
def State.slotAsks (s : State) (cls : Nat) : List Nat :=
  (s.disp.ops.filter (fun o => o.issueWait && issueCls o.opcode == some cls)).map (·.part)

/-- An operation may issue: a window of its class has slots left, and no operation that waits for them comes before it. Where no unit of the class is in service it is not held
(R246, R254; DESIGN CHOICE, log 106). -/
def State.mayIssue (s : State) (o : Op) : Bool :=
  match issueCls o.opcode with
  | none => true
  | some cls =>
    match s.openCluster cls with
    | none => (List.range 64).all (fun c => s.capNow cls c == 0)
    | some c => s.grantee cls c ((s.slotAsks cls ++ [o.part]).map (fun p => (p, false))) == some o.part

/-- An operation takes its turn at the issue logic, or waits for it. -/
def State.issueTurn (s : State) (o : Op) : Option State :=
  if s.mayIssue o then
    some (if o.issueWait then (s.modOp o.id (fun o => { o with issueWait := false })) else s)
  else none

end Sys2Proof.Machine
end

