-- ==== Sys2Proof/Machine/CavernOps.lean ====
section
/-! DEFINITION. The cavern: stripe layouts, reads and writes with their redundancy, versions at the home module, tables, loss, and what a requester does
with an answer (R199 to R221, R228). -/

namespace Sys2Proof.Machine

/-! ### Stripe layouts (R204) -/

def unitBytes : Nat := 65536

/-- Stripe width n of a parity mode, 0 for the others. -/
def PbRegion.n (g : PbRegion) : Nat := if g.mode = 2 then 5 else if g.mode = 3 then 9 else 0

def PbRegion.w (g : PbRegion) : Nat := max g.members.length 1

/-- Bytes of one version on one member, PER (Table 9-2). -/
def PbRegion.per (g : PbRegion) : Nat :=
  let u := g.size / unitBytes
  (if g.mode = 0 then ceilDiv u g.w
   else if g.mode = 1 then 2 * ceilDiv u g.w
   else ceilDiv (ceilDiv u (g.n - 1) * g.n) g.w) * unitBytes

/-- Member index and row of data unit u (Table 9-2). -/
def PbRegion.dataCell (g : PbRegion) (u : Nat) : Nat × Nat :=
  if g.mode = 0 then (u % g.w, u / g.w)
  else if g.mode = 1 then (u % g.w, 2 * (u / g.w))
  else
    let n := g.n
    let st := u / (n - 1)
    let r := n * st / g.w
    let c := n * st % g.w
    let p := r % n
    let j := u % (n - 1)
    (c + (if j < p then j else j + 1), r)

/-- Member index and row of the redundancy of data unit u: its copy, or its stripe's parity unit. -/
def PbRegion.redCell (g : PbRegion) (u : Nat) : Option (Nat × Nat) :=
  if g.mode = 0 then none
  else if g.mode = 1 then some ((u % g.w + 1) % g.w, 2 * (u / g.w) + 1)
  else
    let st := u / (g.n - 1)
    let r := g.n * st / g.w
    some (g.n * st % g.w + r % g.n, r)

/-- The cells whose XOR gives the unit at a cell, when the mode has redundancy: the other copy, or the rest of the stripe. -/
def PbRegion.others (g : PbRegion) (c : Nat × Nat) : List (Nat × Nat) :=
  if g.mode = 0 then []
  else if g.mode = 1 then [if c.2 % 2 = 0 then ((c.1 + 1) % g.w, c.2 + 1) else ((c.1 + g.w - 1) % g.w, c.2 - 1)]
  else
    let b := c.1 / g.n * g.n
    ((List.range g.n).map (fun j => (b + j, c.2))).filter (fun x => x.1 != c.1)

/-- Offset in a member's share of byte `within` of a row of a slot (R204). -/
def PbRegion.offset (g : PbRegion) (slot row within : Nat) : Nat := g.stripeBase + slot * g.per + row * unitBytes + within

def PbRegion.member (g : PbRegion) (i : Nat) : Nat := g.members[i]?.getD 0

/-- This module's member index. -/
def State.memberIdx (s : State) (g : PbRegion) : Option Nat := g.members.findIdx? (· == s.pb.moduleId)

/-- Cavern address of an offset of a module (R199). -/
def caddr (m off : Nat) : Nat := m * 2 ^ 44 + off

/-- This module's unit at a row of a slot is stale: after it rejoined and before it is rebuilt (R220). -/
def State.staleUnit (s : State) (g : PbRegion) (slot row : Nat) : Bool :=
  let r := s.region g.rid
  let k := slot * (g.per / unitBytes) + row
  r.unitsStale || (r.rebuilding && decide (r.rebuildRow ≤ k) && !setHas r.rebuilt k)

/-- A member's unit can be used (R219, R220). -/
def State.cellOk (s : State) (g : PbRegion) (slot : Nat) (c : Nat × Nat) : Bool :=
  let m := g.member c.1
  if m = s.pb.moduleId then g.mode == 0 || !s.staleUnit g slot c.2
  else !(s.region g.rid).lostMembers.contains m && !s.cld.unreachable.contains m

/-- The home module of a region now (R218). -/
def State.homeOf (s : State) (g : PbRegion) : Nat := ((s.region g.rid).homeNow).getD g.home

def State.isHome (s : State) (g : PbRegion) : Bool := s.homeOf g == s.pb.moduleId

/-! ### Block-map entries on the wire (Table 5-1) -/

def MapEnt.word (e : MapEnt) : Nat :=
  fld e.gen 8 56 + fld e.slot 8 48 + fld (b2n e.propagated) 1 45 + fld e.sectors 5 40 + fld e.mode 2 38 + fld (b2n e.replica) 1 37 +
    fld e.fmt 1 36 + e.check % 2 ^ 32

def MapEnt.ofWord (w : Nat) : MapEnt :=
  { gen := bits w 63 56, slot := bits w 55 48, propagated := bit w 45, sectors := bits w 44 40, mode := bits w 39 38, replica := bit w 37,
    fmt := bits w 36 36, check := w % 2 ^ 32 }

/-! ### The holder's side -/

/-- Lines of this module's share from a module address: bytes and poison bits, or the block whose recovery they wait for. -/
def State.holderRead (s : State) (ma n : Nat) : Except Nat (Bytes × Nat) :=
  let blks := (List.range (ceilDiv (ma % 4096 + 64 * n) 4096)).map (fun i => ma / 4096 + i)
  match blks.find? (fun b => s.ras.recov.any (fun r => r.block == b)) with
  | some b => .error b
  | none =>
    let v := (List.range n).map (fun i =>
      let l := ma / 64 + i
      if s.blkSealed (l / 64) then
        (match s.plainBlock (l / 64) with
          | .ok bs => (slice bs (64 * (l % 64)) 64, setHas (s.poisonOf (l / 64)) l)
          | .error _ => (deadLine l, true))
      else s.lineAt l)
    .ok (v.flatMap (·.1), ((List.range n).map (fun i => if (v[i]?.map (·.2)).getD false then 2 ^ i else 0)).sum)

/-- The blocks that lines of the share lie in. -/
def shareBlks (ma n : Nat) : List Nat := (List.range (ceilDiv (ma % 4096 + 64 * n) 4096)).map (fun i => ma / 4096 + i)

/-- A sealed block of the share that does not expand is damaged: counted, and sent to recovery, unless that has failed already (R127, R128). -/
def State.checkShare (s : State) (ma n : Nat) (coded : Bool) : State :=
  (shareBlks ma n).foldl (fun s b =>
    match s.ent? b with
    | none => s
    | some e =>
      if s.ras.recov.any (fun r => r.block == b) || (tabFind s.ras.gone b).isSome || (coded && e.mode != modeLegacy) then s
      else
        match s.plainBlock b with
        | .ok _ => s
        | .error d => s.damageBlk b d (s.nearFind b).isSome) s

/-- Reads lines of the share, plain or as stored: bytes, poison and map entry, or the block whose recovery they wait for. A LEGACY block is sent decoded, as a RAW one
(R129, R206, R227). -/
def State.readShare (s : State) (ma n : Nat) (coded : Bool) : Except Nat (Bytes × Nat × Nat) × State :=
  let s := s.checkShare ma n coded
  let blk := ma / 4096
  let e := (s.ent? blk).getD { sectors := 16 }
  if coded && (e.mode != modeLegacy) && !s.ras.recov.any (fun r => r.block == blk) then
    let d := slice (if (s.nearFind blk).isSome then memBytes s.mem.near (4096 * blk) 4096 else s.lowBlock blk) 0 (256 * e.sectors)
    let marks := (((List.range 64).filter (fun j => setHas (s.poisonOf blk) (64 * blk + j))).map (2 ^ ·)).sum
    (.ok (d, marks, e.word), s)
  else match s.holderRead ma n with
    | .ok v => (.ok (v.1, v.2, ({ sectors := 16, propagated := e.propagated } : MapEnt).word), s)
    | .error b => (.error b, s)

/-- What serving lines of the share leaves: recency and charges, a LEGACY block decoded as it is read, and a block allocated under HOLDER_HINT (R129, R134, R205,
Table 4-1). -/
def State.holderTouch (s : State) (ma n act : Nat) : State :=
  let hint := ((s.pb.regions.find? (fun g => decide (s.shareBase + g.stripeBase ≤ ma) && decide (ma < s.shareBase + g.stripeBase + g.nslots * g.per))).map
    (·.holderHint)).getD 2
  (shareBlks ma n).foldl (fun s blk =>
    let ent := s.ent? blk
    let first := if ma / 4096 = blk then ma / 64 % 64 else 0
    let n := min (64 - first) (n - (64 * blk + first - ma / 64))
    if (s.nearFind blk).isSome then
      (s.nearTouch blk (fun t => { t with hit := true })).useNear blk (match ent with | some _ => 0 | none => first)
        (match ent with | some _ => 4 * sectorsAbove ent | none => n) act
    else
      let s := if ent.any (fun e => e.mode == modeLegacy) then s.countLegacy else s
      let fill := if hint = 0 then s.nearFill blk 0xFF .clean false false else none
      let take := fun (s : State) => s.useDeep blk (if ent.isSome || fill.isSome then 0 else first)
        (match ent with | some e => 4 * e.sectors | none => if fill.isSome then 64 else n) act
      match fill with
      | some s => (take (s.nearTouch blk (fun t => { t with hit := true }))).useNear blk 0 (4 * sectorsAbove ent) act
      | none => take s) s

/-- A read of the share waits for its pair: it changes frequency, or a throttle leaves the activity nothing more in this window (R253, R271). -/
def State.shareStopped (s : State) (ma n act : Nat) : Bool :=
  (shareBlks ma n).any (fun b => (s.nearFind b).isNone && ((s.ctl (.deep (pairOfBlk b))).changing || !s.mayGrant (pairOfBlk b) act (64 * min n 64)))

/-- Takes lines of the share, unless a pair or a recovery holds the read. -/
def State.takeShare (s : State) (ma n act : Nat) (coded : Bool) : Option (Bytes × Nat × Nat) × State :=
  if s.shareStopped ma n act then (none, s)
  else match s.readShare ma n coded with
    | (.ok v, s) => (some v, s.holderTouch ma n act)
    | (.error _, s) => (none, s)

/-- Applies a write or an add to a line of the share at its tag pipeline, charged to `act`, with the read of the old line that a parity delta needs (R206, R207, R242); the
values before and after. -/
def State.holderApply (s : State) (g : PbRegion) (slot row within act : Nat) (op : MergeOp) : (Bytes × Bool) × (Bytes × Bool) × State :=
  let line := (s.shareBase + g.offset slot row within) / 64
  let old := s.lineAt line
  let s := if g.mode ≠ 2 then s else if (s.nearFind (line / 64)).isSome then s.useNear (line / 64) (line % 64) 1 act else s.useDeep (line / 64) (line % 64) 1 act
  let s := match op with
    | .add t a d p => s.addToLine line t a d p act
    | op => s.storeLine 0xFF g.holderHint line op act
  let s := s.countWr (64 * line) 1
  (old, s.lineAt line, s)

/-! ### Sending -/

/-- Sends a request that an access waits for, or keeps it until a session is established (R228, R238). -/
def State.remoteSend (s : State) (peer acc act : Nat) (mk : Nat → ColdonMsg) : State :=
  let tag := s.cav.nextTag % 2 ^ 32
  let m := mk tag
  let up := (s.sess? peer).isSome
  let s := { s with cav := { s.cav with
    nextTag := s.cav.nextTag + 1,
    remote := s.cav.remote ++ [{ rtag := tag, peer := peer, acc := acc, msg := m, issuedAt := s.clk.hmesh, sent := up }],
    accs := s.cav.accs.map (fun a => if a.id == acc then { a with waits := a.waits ++ [tag] } else a) } }
  if up then s.sendSeq peer act m else s

def State.acc? (s : State) (id : Nat) : Option CvnAcc := s.cav.accs.find? (fun a => a.id == id)

def State.modAcc (s : State) (id : Nat) (f : CvnAcc → CvnAcc) : State :=
  { s with cav := { s.cav with accs := s.cav.accs.map (fun a => if a.id == id then f a else a) } }

/-- Opens an access; its number and the state. -/
def State.newAcc (s : State) (a : CvnAcc) : Nat × State :=
  (s.cav.nextAcc, { s with cav := { s.cav with nextAcc := s.cav.nextAcc + 1, accs := s.cav.accs ++ [{ a with id := s.cav.nextAcc }] } })

def State.dropAcc (s : State) (id : Nat) : State :=
  { s with cav := { s.cav with accs := s.cav.accs.filter (fun a => a.id != id) } }

/-- XOR of what has arrived with a further part. -/
def xorInto (a b : Bytes) : Bytes := if a.isEmpty then b else xorBytes a b

/-! ### Tables of sealed regions (R123, R216) -/

/-- Settles the slots, sends TABLE_DROP for home slots that left LIVE with importers, and TABLE_RELEASE for import slots that were freed. -/
def State.settleTables (s : State) : State :=
  let before := s.gol.slots
  let s := s.settleSlots
  before.foldl (fun s x =>
    let g := x.2
    let now := s.slot x.1
    if !g.imp && g.st == 2 && now.st == 3 then
      g.importers.foldl (fun s m => s.sendSeq m actColdon (.tableDrop x.1 g.gen)) s
    else if g.imp && g.st != 0 && now.st == 0 then s.sendSeq g.home actColdon (.tableRelease g.homeSlot g.homeGen)
    else s) s

/-- The least recently used of some import slots (R123). -/
def oldestSlot (l : List (Nat × GSlot)) : Option (Nat × GSlot) :=
  l.foldl (fun b x => match b with
    | none => some x
    | some y => if x.2.used < y.2.used then some x else b) none

/-- An import slot for a table of a home module: a FREE slot beyond the partitions' quotas, or the least recently used import slot with INFLIGHT 0 (R123). -/
def State.freeImport (s : State) : Option Nat :=
  let imports := s.gol.slots.filter (fun x => x.2.imp && x.2.st != 0)
  let used := s.gol.slots.filter (fun x => (x.2.imp || x.2.region) && x.2.st != 0)
  let free := (List.range 256).find? (fun n => (s.slot n).st == 0)
  if decide (used.length < ((s.pb.tier? 255).map (·.quota)).getD 0) && free.isSome then free
  else (oldestSlot (imports.filter (fun x => x.2.st == 2 && s.inflight x.1 == 0))).map (·.1)

/-- An imported table is used (R123). -/
def State.useImport (s : State) (n : Nat) : State :=
  ({ s with gol := { s.gol with useSeq := s.gol.useSeq + 1 } } : State).modSlot n (fun x => { x with used := s.gol.useSeq })

/-- The use of the imported table that a resident coded block of a cavern range is expanded with (R123). -/
def State.useTableOf (s : State) (blk : Nat) : State :=
  if !isLocal (4096 * blk) then s
  else match s.ent? blk with
    | none => s
    | some e => match s.gol.slots.find? (fun x => x.2.imp && s.namesSlot blk x.1 e) with
      | some x => s.useImport x.1
      | none => s

/-- A table of a region's home module is at hand for a block that names it (R123). -/
def State.tableHere (s : State) (g : PbRegion) (e : MapEnt) : Bool :=
  e.mode != modeGolas || s.homeOf g == s.pb.moduleId ||
    (match s.importSlot (s.homeOf g) e.slot e.gen with
      | some n => decide (2 ≤ (s.slot n).st)
      | none => false)

/-- Fetches a table from its home module when it is neither held nor on its way; without a free import slot nothing is sent yet (R123, R216). OWNER of an import slot,
which no SEAL of this module took, reads 63 (DESIGN CHOICE, log 140); its GEN counts up as the slot leaves FREE (R121). -/
def State.importTable (s : State) (g : PbRegion) (slot gen : Nat) : State :=
  let home := s.homeOf g
  match s.importSlot home slot gen with
  | some n => s.useImport n
  | none =>
    if home = s.pb.moduleId then s
    else match s.freeImport with
    | none => s
    | some n =>
      let old := s.slot n
      let s := if old.imp && old.st == 2 then s.sendSeq old.home actColdon (.tableRelease old.homeSlot old.homeGen) else s
      let s := (s.modSlot n (fun x => { x with
        st := 1, owner := 0xFF, imp := true, region := false, home := home, homeSlot := slot, homeGen := gen, gen := (x.gen + 1) % 256, dropped := false, lens := [],
        importers := [] })).useImport n
      let a := s.newAcc { id := 0, who := .table n, rid := g.rid }
      a.2.remoteSend home a.1 actColdon (fun tag => .tableFetch g.rid tag g.digest slot gen)

/-- Drops the coded copies that name a home module's tables, without write-back, and releases the import slots (R216). -/
def State.dropImports (s : State) (home : Nat) : State :=
  let mine := (s.gol.slots.filter (fun x => x.2.imp && x.2.home == home && x.2.st != 0))
  mine.foldl (fun s x =>
    let named := fun (s : State) blk => isLocal (4096 * blk) && (match s.ent? blk with
      | some e => s.namesSlot blk x.1 e
      | none => false)
    let s := (s.mem.tags.filter (fun t => named s t.blk)).foldl (fun s t => s.nearDel t.blk) s
    let s := { s with mem := { s.mem with cueArea := s.mem.cueArea.filter (fun (c : CueCopy) => !named s c.blk) } }
    s.modSlot x.1 (fun g => { g with st := 0, owner := 0, imp := false, lens := [], dropped := false })) s

/-! ### Versions at the home module (R209 to R218) -/

/-- A version slot; slot 0 of a region that has just come into service is CURRENT with version 1 (R209). -/
def Region.vs (r : Region) (k : Nat) : VSlot :=
  tabGet (if k = 0 then { st := .current, version := 1 } else {}) r.slots k

def Region.modVs (r : Region) (k : Nat) (f : VSlot → VSlot) : Region := { r with slots := tabSet r.slots k (f (r.vs k)) }

def Region.find (r : Region) (nslots : Nat) (f : VSlot → Bool) : Option Nat := (List.range nslots).find? (fun k => f (r.vs k))

/-- The slot and number of the current version. -/
def Region.current (r : Region) (nslots : Nat) : Nat × Nat :=
  match r.find nslots (fun v => v.st == .current) with
  | some k => (k, (r.vs k).version)
  | none => (0, 0)

def VSlot.pinCount (v : VSlot) : Nat := v.pins.length + v.basePins

/-- Number of a slot state on the wire (Table 10-4). -/
def VSt.code : VSt → Nat
  | .free => 0
  | .writing => 1
  | .current => 2
  | .held => 3

def VSt.ofCode (n : Nat) : VSt := if n = 1 then .writing else if n = 2 then .current else if n = 3 then .held else .free

/-- A change of a region's state that ALT_HOME mirrors (Table 10-4): CHANGE, SLOT, MODULE, PART, STATE, VERSION. Of a pin, STATE is that of the slot, or WRITING for
the base pin of a reservation (DESIGN CHOICE, log 89). -/
structure Change where
  kind : Nat
  slot : Nat
  module : Nat := 0
  part : Nat := 0
  st : Nat := 0
  version : Nat := 0
deriving DecidableEq, Repr

def Region.change (r : Region) (k : Nat) : Change :=
  let v := r.vs k
  { kind := 0, slot := k, st := v.st.code, version := v.version, module := (v.writer.map (·.1)).getD 0, part := (v.writer.map (·.2.2)).getD 0 }

/-- The change of a pin of a partition of a module on a slot: `kind` 1 added, 2 removed. -/
def Region.pinChange (r : Region) (kind k module part : Nat) : Change :=
  { kind := kind, slot := k, module := module, part := part, st := (r.vs k).st.code, version := (r.vs k).version }

/-- The change of the base pin that the reservation in slot k holds: `kind` 1 added, 2 removed (R211). -/
def Region.baseChange (r : Region) (kind k : Nat) : Change :=
  { kind := kind, slot := (r.vs k).base, module := ((r.vs k).writer.map (·.1)).getD 0, part := ((r.vs k).writer.map (·.2.2)).getD 0, st := 1,
    version := (r.vs (r.vs k).base).version }

/-- Gives an answer of the home module to whoever asked. -/
def State.giveAnswer (s : State) (a : Asker) (epoch status slot version : Nat) : State :=
  match a with
  | .peer m tag => s.sendSeq m actColdon (.regionRsp tag status slot epoch version)
  | .op id => s.modOp id (fun o => { o with rsp := some (status, slot, version) })

/-- A region homed here loses its mirror (R217). -/
def State.loseMirror (s : State) (g : PbRegion) : State :=
  if !s.isHome g || (s.region g.rid).mirrorLost then s
  else (s.modRegion g.rid (fun r => { r with mirrorLost := true })).logEv .cvnNoMirror 0xFF g.altHome 1 g.rid

/-- A region runs without a mirror, as far as this module knows: as its home, after a promotion, or because ALT_HOME is unreachable here (R217, R218)
(DESIGN CHOICE, log 89). -/
def State.noMirror (s : State) (g : PbRegion) : Bool :=
  (s.region g.rid).homeNow.isSome || (if s.isHome g then (s.region g.rid).mirrorLost else g.kind == 1 && s.cld.unreachable.contains g.altHome)

/-- Sends changes of a region to ALT_HOME for an access that waits for their acknowledgements (R217). -/
def State.sendChanges (s : State) (g : PbRegion) (who : CvnFor) (chs : List Change) : State :=
  let x := s.newAcc { id := 0, who := who, rid := g.rid }
  chs.foldl (fun s c => s.remoteSend g.altHome x.1 actColdon
    (fun tag => .mirror g.rid tag (s.region g.rid).epoch c.kind c.slot c.module c.part c.st c.version)) x.2

/-- Sends the changes of a region to ALT_HOME, and answers when it has acknowledged them; without a mirror, at once (R210, R217, R218) (DEDUCED, log 90). -/
def State.homeAnswer (s : State) (g : PbRegion) (chs : List Change) (a : Option Asker) (status slot version : Nat) : State :=
  let r := s.region g.rid
  let promoted := r.homeNow.isSome
  let s := if status = 5 then { s with cav := { s.cav with conflicts := s.cav.conflicts + 1 } } else s
  let now := fun (s : State) => match a with
    | some a => s.giveAnswer a r.epoch status slot version
    | none => s
  if g.kind = 0 || promoted || chs.isEmpty then now s
  else if s.cld.unreachable.contains g.altHome then now (s.loseMirror g)
  else
    let who : CvnFor := match a with
      | some (.peer m tag) => .answer m (.regionRsp tag status slot r.epoch version)
      | some (.op id) => .answerOp id status slot version
      | none => .mirror
    s.sendChanges g who chs

/-- Sends the whole state of a region to an ALT_HOME that presents a new session: each slot afresh, then its pins; the region has a mirror again (R217)
(DESIGN CHOICE, log 89). -/
def State.resendMirror (s : State) (g : PbRegion) : State :=
  let r := s.region g.rid
  if g.kind = 0 || !s.isHome g || r.homeNow.isSome || r.slots.isEmpty then s
  else
    let chs := (List.range g.nslots).flatMap (fun k =>
      let v := r.vs k
      [{ kind := 0, slot := k }, r.change k] ++ v.pins.map (fun p => r.pinChange 1 k p.1 p.2) ++
        (if v.st == .writing then [r.baseChange 1 k] else []))
    -- a pin is added to a slot whose state is known: slots first
    let order := chs.filter (fun c => c.kind == 0) ++ chs.filter (fun c => c.kind != 0)
    (s.modRegion g.rid (fun r => { r with mirrorLost := false })).sendChanges g .mirror order

/-- Frees the HELD slots without pins (Table 9-4). -/
def Region.freeHeld (r : Region) (nslots : Nat) : Region × List Change :=
  (List.range nslots).foldl (fun (acc : Region × List Change) k =>
    let v := acc.1.vs k
    if v.st == .held && v.pinCount == 0 then
      let r := acc.1.modVs k (fun _ => {})
      (r, acc.2 ++ [r.change k])
    else acc) (r, [])

/-- A reservation takes slot k: WRITING for its writer, with a base pin on the current slot (R211). -/
def Region.reserve (r : Region) (k cur module rtag part : Nat) : Region :=
  (r.modVs k (fun _ => { st := .writing, writer := some (module, rtag, part), base := cur })).modVs cur (fun v => { v with basePins := v.basePins + 1 })

/-- The asker of a waiting reservation. -/
def State.resvAsker (s : State) (w : Resv) : Asker := if w.module = s.pb.moduleId then .op w.rtag else .peer w.module w.rtag

/-- Ends waiting reservations whose base has been superseded, and lets the others take FREE slots in their order of arrival (R212) (DEDUCED, log 126). -/
def State.serveWaiting (s : State) (g : PbRegion) : State :=
  (s.region g.rid).waitq.foldl (fun s w =>
    let r := s.region g.rid
    let c := r.current g.nslots
    let out := fun (r : Region) => { r with waitq := r.waitq.filter (fun x => x != w) }
    if w.base ≠ c.2 then (s.modRegion g.rid out).homeAnswer g [] (some (s.resvAsker w)) 5 0 c.2
    else match r.find g.nslots (fun v => v.st == .free) with
      | none => s
      | some k =>
        let s := s.modRegion g.rid (fun r => (out r).reserve k c.1 w.module w.rtag w.part)
        let r := s.region g.rid
        s.homeAnswer g [r.change k, r.baseChange 1 k] (some (s.resvAsker w)) 0 k c.2) s

/-- Frees HELD slots and serves waiting reservations after a change; the changes go to the mirror with the answer. -/
def State.homeSettle (s : State) (g : PbRegion) (chs : List Change) (a : Option Asker) (status slot version : Nat) : State :=
  let f := (s.region g.rid).freeHeld g.nslots
  let s := s.modRegion g.rid (fun _ => f.1)
  (s.homeAnswer g (chs ++ f.2) a status slot version).serveWaiting g

/-- RESERVE (R211, R212, R214). `whole`: the reservation of a SEAL or UNSEAL (R214), which a sealed base does not refuse. -/
def State.homeReserve (s : State) (g : PbRegion) (a : Asker) (module rtag part base : Nat) (whole : Bool) : State :=
  let r := s.region g.rid
  let c := r.current g.nslots
  if base ≠ c.2 then s.homeAnswer g [] (some a) 5 0 c.2
  else if r.sealedCur && !whole then s.homeAnswer g [] (some a) 8 0 c.2
  else match r.find g.nslots (fun v => v.st == .free) with
    | some k =>
      let s := s.modRegion g.rid (fun r => r.reserve k c.1 module rtag part)
      let r := s.region g.rid
      s.homeAnswer g [r.change k, r.baseChange 1 k] (some a) 0 k c.2
    | none => s.modRegion g.rid (fun r => { r with
        waitq := r.waitq ++ [{ module := module, rtag := rtag, part := part, base := base, since := s.clk.hmesh }] })

/-- A slot is WRITING for a module's partition. -/
def VSlot.writtenBy (v : VSlot) (module part : Nat) : Bool :=
  v.st == .writing && (match v.writer with
    | some w => w.1 == module && w.2.2 == part
    | none => false)

/-- Takes one base pin off a slot. -/
def Region.unbase (r : Region) (k : Nat) : Region := r.modVs k (fun v => { v with basePins := v.basePins - 1 })

/-- The slot that holds a version. -/
def Region.slotOf (r : Region) (nslots version : Nat) : Option Nat :=
  r.find nslots (fun v => (v.st == .current || v.st == .held) && v.version == version)

/-- COMMIT of slot k on a base (R211). `sealing`: the new version is sealed (R214). -/
def State.homeCommit (s : State) (g : PbRegion) (a : Asker) (module part base k : Nat) (sealing : Bool) : State :=
  let r := s.region g.rid
  let c := r.current g.nslots
  if !((r.vs k).writtenBy module part) then s.homeAnswer g [] (some a) 5 0 c.2
  else
    let b := (r.vs k).base
    let unbased := r.baseChange 2 k
    if base = c.2 then
      let v := c.2 + 1
      let r := r.modVs k (fun x => { x with st := .current, version := v, writer := none })
      let r := (r.modVs c.1 (fun x => { x with st := .held })).unbase b
      let s := s.modRegion g.rid (fun _ => { r with sealedCur := sealing })
      s.homeSettle g [unbased, r.change k, r.change c.1] (some a) 0 k v
    else
      let r := (r.modVs k (fun _ => {})).unbase b
      let s := s.modRegion g.rid (fun _ => r)
      s.homeSettle g [unbased, r.change k] (some a) 5 0 c.2

/-- ABANDON (R215). -/
def State.homeAbandon (s : State) (g : PbRegion) (a : Asker) (module part k : Nat) : State :=
  let r := s.region g.rid
  if !((r.vs k).writtenBy module part) then s.homeAnswer g [] (some a) 0 0 (r.current g.nslots).2
  else
    let s := s.modRegion g.rid (fun r => (r.modVs k (fun _ => {})).unbase (r.vs k).base)
    s.homeSettle g [r.baseChange 2 k, (s.region g.rid).change k] (some a) 0 k (r.current g.nslots).2

/-- Removes a partition's pin on a region; the changes, and the version it pinned (0 for none). -/
def Region.unpin (r : Region) (nslots module part : Nat) : Region × List Change × Nat :=
  match (List.range nslots).find? (fun k => (r.vs k).pins.contains (module, part)) with
  | none => (r, [], 0)
  | some k =>
    (r.modVs k (fun v => { v with pins := v.pins.filter (· != (module, part)) }),
      [r.pinChange 2 k module part], (r.vs k).version)

/-- ACQUIRE (R213): version 0 names the current one. -/
def State.homeAcquire (s : State) (g : PbRegion) (a : Asker) (module part version : Nat) : State :=
  let r := s.region g.rid
  let c := r.current g.nslots
  match (if version = 0 then some c.1 else r.slotOf g.nslots version) with
  | none => s.homeAnswer g [] (some a) 6 0 c.2
  | some k =>
    let u := r.unpin g.nslots module part
    let r := u.1.modVs k (fun v => { v with pins := v.pins ++ [(module, part)] })
    let s := s.modRegion g.rid (fun _ => r)
    s.homeSettle g (u.2.1 ++ [r.pinChange 1 k module part]) (some a) 0 k (r.vs k).version

/-- RELEASE (R213). -/
def State.homeRelease (s : State) (g : PbRegion) (a : Asker) (module part : Nat) : State :=
  let u := (s.region g.rid).unpin g.nslots module part
  let s := s.modRegion g.rid (fun _ => u.1)
  s.homeSettle g u.2.1 (some a) 0 0 u.2.2

/-- What a message about a region does at its home module (R210 to R215). -/
def State.homeDo (s : State) (g : PbRegion) (q : HomeReq) : State :=
  if !s.isHome g then s.giveAnswer q.asker (s.region g.rid).epoch 4 0 0
  else match q.what with
    | .reserve base whole => s.homeReserve g q.asker q.module q.rtag q.part base whole
    | .commit base k sealing => s.homeCommit g q.asker q.module q.part base k sealing
    | .abandon k => s.homeAbandon g q.asker q.module q.part k
    | .acquire v => s.homeAcquire g q.asker q.module q.part v
    | .release => s.homeRelease g q.asker q.module q.part

/-- An answer of the home module about a region still waits for ALT_HOME (R210). -/
def State.homeBusy (s : State) (rid : Nat) : Bool :=
  s.cav.accs.any (fun a => a.rid == rid && (match a.who with
    | .answer .. | .answerOp .. | .mirror => true
    | _ => false))

/-- The home module takes a message about a region, after those that came before it (R210). -/
def State.homeTake (s : State) (g : PbRegion) (q : HomeReq) : State :=
  if s.homeBusy g.rid || !(s.region g.rid).inq.isEmpty then s.modRegion g.rid (fun r => { r with inq := r.inq ++ [q] }) else s.homeDo g q

/-- Takes the messages that waited, as far as no answer waits for ALT_HOME (R210). -/
def State.homeDrain (s : State) (rid : Nat) : State :=
  match s.pb.region? rid with
  | none => s
  | some g => (s.region rid).inq.foldl (fun s _ =>
      if s.homeBusy rid then s
      else match (s.region rid).inq with
        | [] => s
        | q :: t => (s.modRegion rid (fun r => { r with inq := t })).homeDo g q) s

/-- Ends every pin and reservation of a module at the regions homed here (R215). -/
def State.endModule (s : State) (m : Nat) : State :=
  (s.pb.regions.filter (fun g => s.isHome g && g.kind == 1)).foldl (fun s g =>
    let r := s.region g.rid
    let writing := (List.range g.nslots).filter (fun k => match (r.vs k).writer with
      | some w => w.1 == m
      | none => false)
    let pinned := (List.range g.nslots).filter (fun k => (r.vs k).pins.any (fun p => p.1 == m))
    if writing.isEmpty && pinned.isEmpty && !r.waitq.any (fun w => w.module == m) && !r.inq.any (fun q => q.module == m) then s
    else
      let r := { r with waitq := r.waitq.filter (fun w => w.module != m), inq := r.inq.filter (fun q => q.module != m) }
      let chs := pinned.flatMap (fun k => ((r.vs k).pins.filter (fun p => p.1 == m)).map (fun p => r.pinChange 2 k m p.2)) ++
        writing.map (fun k => r.baseChange 2 k)
      let r := pinned.foldl (fun (r : Region) k => r.modVs k (fun v => { v with pins := v.pins.filter (fun p => p.1 != m) })) r
      let r := writing.foldl (fun (r : Region) k => (r.modVs k (fun _ => {})).unbase (r.vs k).base) r
      let s := s.modRegion g.rid (fun _ => r)
      s.homeSettle g (chs ++ writing.map r.change) none 0 0 0) s

/-- Ends the publishes of this module on a region whose home moved, those of a SEAL or UNSEAL among them: their slots are FREE at the new home (R214, R218). -/
def State.failPublishes (s : State) (rid : Nat) : State :=
  (s.disp.ops.filter (fun o => (o.opcode == 0x40 || o.opcode == 0x10 || o.opcode == 0x11) && o.rgn == rid && o.phase == .running)).foldl (fun s o =>
    let mine := fun (a : CvnAcc) => match a.who with
      | .op i | .fill i | .opWr i | .answerOp i _ _ _ => i == o.id
      | .opRd i _ => i == o.id
      | _ => false
    let gone := (s.cav.accs.filter mine).map (·.id)
    (({ s with cav := { s.cav with
      accs := s.cav.accs.filter (fun a => !mine a)
      remote := s.cav.remote.filter (fun (r : Remote) => !gone.contains r.acc) } } : State)).endOp o.id stPeerUnreachable 31 0) s

/-- Tells a module that this one is the home of a region now (R218). -/
def State.announce (s : State) (peer : Nat) (g : PbRegion) : State :=
  if (s.region g.rid).homeNow = some s.pb.moduleId then s.sendSeq peer actColdon (.promote g.rid (s.region g.rid).epoch s.pb.moduleId) else s

/-- Makes this module the home of a region it mirrored, and announces it: now to every module it has a session with, to the others when they have one again (R218).
MIRROR does not say whether a version is sealed: the map entries of this module's own units of it do (DESIGN CHOICE, log 89). -/
def State.promote (s : State) (g : PbRegion) : State :=
  let me := s.pb.moduleId
  let s := s.modRegion g.rid (fun r =>
    let r := { r with epoch := r.epoch + 1, homeNow := some me, waitq := [], inq := [], mirrorLost := true }
    (List.range g.nslots).foldl (fun (r : Region) k =>
      if (r.vs k).st = .writing then r.modVs k (fun _ => {}) else r.modVs k (fun v => { v with basePins := 0 })) r)
  let first := (s.shareBase + g.offset ((s.region g.rid).current g.nslots).1 0 0) / 4096
  let coded := (s.memberIdx g).isSome && s.mem.bmap.any (fun e => decide (first ≤ e.1) && decide (e.1 < first + g.per / 4096))
  let s := (s.modRegion g.rid (fun r => { (r.freeHeld g.nslots).1 with sealedCur := coded })).failPublishes g.rid
  let s := s.cld.sessions.foldl (fun s x => s.announce x.peer g) s
  s.logEv .cvnPromoted 0xFF me 1 g.rid

end Sys2Proof.Machine
end

