-- ==== Sys2Proof/Machine/CavernReq.lean ====
section
/-! DEFINITION. Cavern accesses of this module: routes with redundancy, answers and their ends, lost peers and new sessions (R206 to R208, R215 to R221, R228, R238). -/

namespace Sys2Proof.Machine

/-! ### Routes (R204, R219) -/

/-- A cell can be used by an access that avoids some modules. -/
def State.cellUse (s : State) (g : PbRegion) (slot : Nat) (avoid : List Nat) (c : Nat × Nat) : Bool :=
  s.cellOk g slot c && !avoid.contains (g.member c.1)

/-- The cells a read of a unit's bytes takes, XORed together, and whether it runs with reduced redundancy; none when it cannot be served. -/
def State.readRoute (s : State) (g : PbRegion) (slot : Nat) (avoid : List Nat) (c : Nat × Nat) : Option (List (Nat × Nat) × Bool) :=
  if s.cellUse g slot avoid c then some ([c], false)
  else
    let o := g.others c
    if !o.isEmpty && o.all (s.cellUse g slot avoid) then some (o, true) else none

/-! ### Ends of accesses -/

/-- A Coldon port that the prompt book enables is out of service: cavern accesses run on those that are left (R18, Table 1-2). -/
def State.coldonShort (s : State) : Bool := s.pb.cldPorts.any (fun c => c.enable && !(s.cport c.port).up)

/-- Outcome of an access for its requester: 0 OK, a status of Table 10-5, 100 for a lost peer, or 101 for a message closed short (R362). -/
def CvnAcc.out (a : CvnAcc) : Nat := if a.status ≠ 0 then a.status else if a.lost then 100 else 0

/-- Place of an end of a cavern access in the order of R164 and R362: a peer that cannot be reached, a message closed short, a conflict, then the ends that R164 does not list, and an extent outside its
bounds last (DESIGN CHOICE, log 143). -/
def cvnRank (n : Nat) : Nat :=
  if n = 0 then 9 else if n = 1 then 5 else if n = 101 then 2 else if n = 5 ∨ n = 6 ∨ n = 7 then 3 else if n = 2 ∨ n = 8 ∨ n = 9 ∨ n = 10 then 4 else 1

/-- Of two ends of accesses of an operation, the one that applies first (R164). -/
def cvnWorse (a b : Nat) : Nat := if cvnRank b < cvnRank a then b else a

/-- Status and detail of a staged operation whose cavern access ended badly (Table 10-5). -/
def cvnStatus (n : Nat) : Nat × Nat :=
  if n = 1 then (stOutOfBounds, dtBadOffset)
  else if n = 2 then (stNoPermission, 24)
  else if n = 5 ∨ n = 7 then (stConflict, dtNone)
  else if n = 6 then (stConflict, 30)
  else if n = 8 then (stNoPermission, 22)
  else if n = 9 then (stNoPermission, 26)
  else if n = 10 then (stBadDescriptor, 21)
  else if n = 101 then (stTruncated, dtNone)
  else (stPeerUnreachable, 31)

/-- CVN_DESC_MISMATCH (R202). -/
def State.descMismatch (s : State) (rid peer : Nat) : State := s.logEv .cvnDescMismatch 0xFF peer 1 rid

/-- The cavern address of an offset in a region's slot: where its data unit lies (R199, R204). -/
def State.cavAddr (s : State) (rid slot off : Nat) : Option Nat :=
  (s.pb.region? rid).map (fun g =>
    let c := g.dataCell (off / unitBytes)
    caddr (g.member c.1) (g.offset slot c.2 (off % unitBytes)))

/-- The source of the mark that a host's write leaves on a line of a cavern-backed range, for Get Poison List (R51, Table 2-7). -/
def State.noteCavMark (s : State) (r : HostReq) : State :=
  let put := fun (bad full : Bool) => { s with mem := { s.mem with
    poisonSrc := if bad then tabSet s.mem.poisonSrc r.line 1 else if full then tabDel s.mem.poisonSrc r.line else s.mem.poisonSrc } }
  match r.op with
  | .wr _ p => put p true
  | .apt _ _ p => put p false
  | _ => s

/-- Ends a host request whose cavern access has ended (R200, R202, R207, R219). -/
def State.hostCvnDone (s : State) (a : CvnAcc) (req : Nat) : State :=
  match s.host.reqs.find? (fun r => r.id == req) with
  | none => s
  | some r =>
    match r.op, a.what with
    | .wrPtl d m p, .rd .. =>
      -- a partial write is merged with the line read before it is sent whole (DEDUCED, log 26)
      { s with host := { s.host with reqs := s.host.reqs.map (fun (x : HostReq) => if x.id == req then
          { x with op := .wr (mergeBytes (slice a.data 0 64) d m) (p || bit a.poison 0), wait := .snoop } else x) } }
    | _, _ =>
    let s := s.dropReq req
    match r.op with
    | .rd =>
      if a.out = 0 then
        let s := if bit a.poison 0 then s.reportPoison r.part r.line (s.cavAddr a.rid a.slot a.off) else s
        s.respond r.port r.ld r.tag (slice a.data 0 64) (bit a.poison 0)
      else s.respond r.port r.ld r.tag onesLine true
    | .spec => s
    | _ =>
      let s := if a.lost && a.status == 0 then s.logEv .cvnWriteLost r.part (s.pb.moduleId) 1 a.rid else s
      -- the marks that this module's hosts leave on cavern-backed lines (Table 2-7)
      let s := if a.out = 0 then s.noteCavMark r else s
      s.complete r.port r.ld r.tag

/-- What a block read from the cavern brings: its bytes in the form the near tier holds, and its poisoned lines; its map entry and its table are kept
(R89, R101, R216). -/
def State.landBlock (s : State) (a : CvnAcc) (r : PbRange) (blk : Nat) : (Bytes × NSet) × State :=
  let e := MapEnt.ofWord a.mapent
  let sealed := e.mode != modeRaw || e.sectors != 16
  let plain := if e.mode = modeLegacy then (match expandForm e none a.data with | .ok b => b | .error _ => a.data) else a.data
  let s := if sealed then
      ({ s with mem := { s.mem with bmap := tabSet s.mem.bmap blk { e with replica := false } } }) else s
  let s := match s.pb.region? r.regionId with
    | some g => if e.mode = modeGolas then s.importTable g e.slot e.gen else s
    | none => s
  ((plain, ((List.range 64).filter (fun j => bit a.poison j)).map (fun j => 64 * blk + j)), s)

/-- A coded block whose table has not been imported waits until the import completes (R123). -/
def State.landWait (s : State) (a : CvnAcc) (r : PbRange) : Option State :=
  let e := MapEnt.ofWord a.mapent
  match s.pb.region? r.regionId with
  | some g =>
    if a.out ≠ 0 || s.tableHere g e then none
    else some (({ s with cav := { s.cav with landing := s.cav.landing ++ [a] } } : State).importTable g e.slot e.gen)
  | none => none

/-- Ends the read of a coded or plain block for a cue (R89, R101, R102). -/
def State.cueCvnDone (s : State) (a : CvnAcc) (p i k : Nat) : State :=
  match (s.part p).cue.cues[i]? with
  | none => s.skipBlk p
  | some c =>
    if !c.out.contains k then s.skipBlk p
    else match s.cueAddr p c k with
      | none => s.skipBlk p
      | some (r, idx, off) =>
        let blk := r.addr idx off / 4096
        -- the range must still be sealed or covered by an ACQUIRE, at the same slot, when the block lands (R26, R89, R213)
        if a.out ≠ 0 || !s.cueMay p c r idx off || a.slot != s.regionSlot p r then (s.skipBlk p).placeBlk p blk
        else match s.landWait a r with
        | some s => s
        | none =>
          let b := s.landBlock a r blk
          b.2.cuePut p c blk (s.hintAt r idx off) b.1 (fun s st pin own => s.nearAlloc blk p (sectorsAbove (s.ent? blk)) st pin own b.1.1 b.1.2)

/-- Ends the read of a block that a PLACE fills; RESULT counts the block when it is filled (R167). -/
def State.placeCvnDone (s : State) (a : CvnAcc) (id p idx off : Nat) : State :=
  match s.pb.range? p idx with
  | none => s
  | some r =>
    match s.landWait a r with
    | some s => s
    | none =>
      let s := s.modOp id (fun o => { o with
        left := o.left - 1, degraded := o.degraded || a.degraded || s.coldonShort, cvnBad := cvnWorse o.cvnBad a.out })
      let blk := r.addr idx off / 4096
      let hint := s.hintAt r idx off
      if a.out ≠ 0 || (s.nearFind blk).isSome || decide (2 ≤ hint) then s
      else if !(s.isSealed p idx || (s.pinSlot p r).isSome) || a.slot != s.regionSlot p r then s.skipBlk p
      else
        let b := s.landBlock a r blk
        match b.2.nearAlloc blk p (sectorsAbove (b.2.ent? blk)) .clean (hint == 1) false b.1.1 b.1.2 with
        | some s => (s.useNear blk 0 (4 * sectorsAbove (s.ent? blk)) p).modOp id (fun o => { o with result := o.result + 1 })
        | none => b.2.noRoom blk p (hint == 1)

/-- Steps past the rows that are rebuilt. -/
def Region.skipRebuilt : Nat → Region → Region
  | 0, r => r
  | n + 1, r => if setHas r.rebuilt r.rebuildRow then Region.skipRebuilt n { r with rebuildRow := r.rebuildRow + 1 } else r

/-- A row has been rebuilt: counted, or counted lost when part of it could not be had; past the last row the rebuild ends (R220, R221). -/
def State.rowDone (s : State) (g : PbRegion) (k : Nat) : State :=
  let total := g.nslots * (g.per / unitBytes)
  let bad := setHas (s.region g.rid).rebuildBad k
  let s := { s with cav := { s.cav with rebuildUnits := s.cav.rebuildUnits + b2n (!bad), lostUnits := s.cav.lostUnits + b2n bad } }
  s.modRegion g.rid (fun r =>
    let r := Region.skipRebuilt total { r with rebuildLeft := tabDel r.rebuildLeft k, rebuildBad := setDel r.rebuildBad k, rebuilt := setAdd r.rebuilt k }
    if total ≤ r.rebuildRow then { r with rebuilding := false, rebuilt := [], rebuildRow := 0 } else r)

/-- Writes a rebuilt chunk of 128 lines of row k; poisons it when it cannot be rebuilt (R220, R221). -/
def State.rebuildDone (s : State) (a : CvnAcc) (k chunk : Nat) : State :=
  match s.pb.region? a.rid with
  | none => s
  | some g =>
    let rows := max (g.per / unitBytes) 1
    let ma := s.shareBase + g.offset (k / rows) (k % rows) (8192 * chunk)
    let lost := a.gone || a.out ≠ 0
    let s := (List.range 128).foldl (fun s j =>
      if lost then s.setPoison (ma / 64 + j) 0
      else s.putDeep (ma / 64 + j) (slice a.data (64 * j) 64, bit a.poison j)) ((s.evictBlk (ma / 4096)).evictBlk (ma / 4096 + 1))
    let s := if lost then s else (s.useDeep (ma / 4096) 0 64 actRebuild).useDeep (ma / 4096 + 1) 0 64 actRebuild
    let left := tabGet 0 (s.region a.rid).rebuildLeft k - 1
    let s := s.modRegion a.rid (fun r => { r with
      rebuildLeft := tabSet r.rebuildLeft k left, rebuildBad := if lost then setAdd r.rebuildBad k else r.rebuildBad })
    if left ≠ 0 then s else s.rowDone g k

/-- Ends an access for whoever waits for it. -/
def State.accDone (s : State) (a : CvnAcc) : State :=
  let s := s.dropAcc a.id
  let s := if a.degraded then
      (match a.what with
        | .rd n _ _ => { s with cav := { s.cav with degradedReads := s.cav.degradedReads + n } }
        | _ => s)
    else s
  let s := if a.status = 2 then s.descMismatch a.rid a.refuser else s
  match a.who with
  | .host req => s.hostCvnDone a req
  | .opRd id line => s.modOp id (fun o => { o with
      got := tabSet o.got line (slice a.data 0 64, bit a.poison 0), degraded := o.degraded || a.degraded || s.coldonShort,
      cvnBad := cvnWorse o.cvnBad a.out })
  | .opWr id => s.modOp id (fun o => { o with
      left := o.left - 1, degraded := o.degraded || a.degraded || s.coldonShort, cvnBad := cvnWorse o.cvnBad a.out })
  | .fill id =>
    -- a member that is lost leaves its units to the redundancy (R219)
    let redundant := a.lost && a.status == 0 && decide (((s.pb.region? a.rid).map (·.mode)).getD 0 ≠ 0)
    s.modOp id (fun o => { o with
      left := o.left - 1, degraded := o.degraded || redundant, cvnBad := if redundant then o.cvnBad else cvnWorse o.cvnBad a.out })
  | .place id p idx off => s.placeCvnDone a id p idx off
  | .op id => s.modOp id (fun o => { o with rsp := some (a.out, a.rslot, a.version) })
  | .cue p i k => s.cueCvnDone a p i k
  | .cueGone p => s.skipBlk p
  | .rebuild _ k chunk => s.rebuildDone a k chunk
  | .serve peer tag =>
    let n := match a.what with
      | .rd n _ _ => n
      | _ => 1
    if a.out = 0 then
      ({ s with cav := { s.cav with served := s.cav.served + n } }).sendSeq peer actColdon (.readRsp tag 0 a.poison 0 a.data)
    else
      -- what cannot be rebuilt is poisoned (R221)
      let first := (s.shareBase + (((s.pb.region? a.rid).map (fun g => g.offset a.slot ((a.cell.map (·.2)).getD 0) a.off)).getD 0)) / 64
      s.sendSeq peer actColdon (.readRsp tag 0 (2 ^ n - 1) 0 ((List.range n).flatMap (fun i => deadLine (first + i))))
  -- what the parity holder refused is refused (R202, R207)
  | .ack peer tag => s.sendSeq peer actColdon (.writeAck tag (if a.status ≤ 10 then a.status else 0))
  | .answer peer m => (s.sendSeq peer actColdon m).homeDrain a.rid
  | .answerOp id st sl v => (s.modOp id (fun o => { o with rsp := some (st, sl, v) })).homeDrain a.rid
  | .mirror => s.homeDrain a.rid
  | .table n =>
    if a.out = 0 then s
    else
      -- what waits for a table that cannot be had is given up, as for any answer that fails
      let t := s.slot n
      let s := { s with cav := { s.cav with landing := s.cav.landing.map (fun (x : CvnAcc) =>
        let e := MapEnt.ofWord x.mapent
        if e.slot == t.homeSlot && e.gen == t.homeGen && x.rid == a.rid then { x with status := a.out } else x) } }
      s.modSlot n (fun g => { g with st := 0, imp := false, owner := 0, lens := [] })
  | .abandon rid p =>
    if a.out ≠ 0 then s
    else match s.pb.region? rid with
      | none => s
      | some g =>
        let x := s.newAcc { id := 0, who := .fire, rid := rid }
        x.2.remoteSend (s.homeOf g) x.1 p (fun tag => .abandon rid tag g.digest p a.rslot)
  | .compl id => s.completed id
  | .fire => s

/-- Takes up again what waited for a table, or for an import slot (R123). -/
def State.retryLanding (s : State) : State :=
  s.cav.landing.foldl (fun s a =>
    match s.cav.landing with
    | [] => s
    | _ :: rest =>
      let s : State := { s with cav := { s.cav with landing := rest } }
      match a.who with
      | .cue p i k => s.cueCvnDone a p i k
      | .place id p idx off => s.placeCvnDone a id p idx off
      | .cueGone p => s.skipBlk p
      | _ => s) s

/-- Ends an access when it waits for nothing more. -/
def State.accCheck (s : State) (id : Nat) : State :=
  match s.acc? id with
  | none => s
  | some a => if a.waits.isEmpty then s.accDone a else s

/-! ### Issue -/

/-- Keeps a read of the share until a recovery ends, or its pair grants it (R253, R271, R287). -/
def State.holdRead (s : State) (peer rtag ma lines act : Nat) (coded : Bool) : State :=
  let id := s.host.nextReq
  { s with host := { s.host with nextReq := id + 1 }
           cav := { s.cav with heldReads := s.cav.heldReads ++ [{ id := id, peer := peer, rtag := rtag, ma := ma, lines := lines, since := s.clk.hmesh, coded := coded, act := act }] } }

/-- Takes a part of a read that this module holds itself: at its tag pipelines as for any other reader, and counted unless a cue reads ahead (R91, R205). A read that a
recovery holds waits as a READ of another module does (R287). -/
def State.ownPart (s : State) (id : Nat) (ma n : Nat) (coded pre : Bool) : State :=
  let act := ((s.acc? id).map (·.act)).getD actColdon
  let s := if pre then s else s.countRd ma n
  match s.takeShare ma n act coded with
  | (some v, s) => s.modAcc id (fun a => { a with data := xorInto a.data v.1, poison := a.poison ||| v.2.1, mapent := v.2.2 })
  | (none, s) =>
    let tag := s.cav.nextTag % 2 ^ 32
    let s := ({ s with cav := { s.cav with
      nextTag := s.cav.nextTag + 1,
      remote := s.cav.remote ++ [{ rtag := tag, peer := s.pb.moduleId, acc := id, msg := .finish, issuedAt := s.clk.hmesh, sent := true }] } } : State).modAcc id
        (fun a => { a with waits := a.waits ++ [tag], mapent := ({ sectors := 16 } : MapEnt).word })
    s.holdRead s.pb.moduleId tag ma n act coded

/-- Sends the parts of a read. -/
def State.readParts (s : State) (id : Nat) (g : PbRegion) (slot row within n act : Nat) (coded pre : Bool) (avoid : List Nat) (c : Nat) : State :=
  match s.readRoute g slot avoid (c, row) with
  | none =>
    if g.mode = 0 then s.modAcc id (fun a => { a with lost := true })
    else
      let first := caddr (g.member c) (g.offset slot row within) / 64
      s.modAcc id (fun a => { a with data := (List.range n).flatMap (fun i => deadLine (first + i)), poison := 2 ^ n - 1, degraded := true, gone := true })
  | some (cells, deg) =>
    let s := s.modAcc id (fun a => { a with degraded := a.degraded || deg })
    -- a cue's reads and those of a rebuild are no accesses (R91)
    let who := (s.acc? id).any (fun a => match a.who with
      | .cue .. | .cueGone _ | .rebuild .. => true
      | _ => false)
    cells.foldl (fun s x =>
      let off := g.offset slot x.2 within
      if g.member x.1 = s.pb.moduleId then s.ownPart id (s.shareBase + off) n (coded && !deg) (pre || who)
      else
        ({ s with cav := { s.cav with remoteReads := s.cav.remoteReads + n } }).remoteSend (g.member x.1) id act
          (fun tag => .read (caddr (g.member x.1) off) g.rid tag g.digest n pre (coded && !deg))) s

/-- The chunk of a row being rebuilt that has not been written yet, if it is on its way: its access. -/
def State.chunkAcc (s : State) (rid k within : Nat) : Option CvnAcc := s.cav.accs.find? (fun a => a.rid == rid && a.who == .rebuild rid k (within / 8192))

/-- Adds a delta to a parity line of this module's. One of a unit that is not rebuilt yet is part of what the rebuild reads, which its sender's data unit has it in; where
that has been read already, it goes into what has been read (R207, R220). `from_`: the data holder; `act`: the activity of this module's own. -/
def State.applyDelta (s : State) (g : PbRegion) (slot row within from_ act : Nat) (delta : Bytes) (poison : Bool) : State :=
  let k := slot * (g.per / unitBytes) + row
  let line := (s.shareBase + g.offset slot row within) / 64
  let xorLine := fun (s : State) =>
    let old := s.lineAt line
    (s.holderApply g slot row within (if from_ = s.pb.moduleId then act else actColdon) (.full (xorBytes old.1 delta) (old.2 || poison))).2.2
  if !s.staleUnit g slot row then xorLine s
  else if (tabFind (s.region g.rid).rebuildLeft k).isNone then s
  else match s.chunkAcc g.rid k within with
    | none => xorLine s
    | some a =>
      if s.cav.remote.any (fun r => r.acc == a.id && r.peer == from_) then s
      else
        let j := within % 8192
        s.modAcc a.id (fun a => { a with
          data := xorInto a.data (List.replicate j 0 ++ delta ++ List.replicate (8192 - j - delta.length) 0),
          poison := a.poison ||| (if poison then 2 ^ (j / 64) else 0) })

/-- A delta of this module's own change. -/
def State.addDelta (s : State) (g : PbRegion) (slot row within act : Nat) (delta : Bytes) (poison : Bool) : State :=
  s.applyDelta g slot row within s.pb.moduleId act delta poison

/-- A write of this module's to its own unit: one that is not rebuilt gets it with its rebuild, or after it when the rebuild's reads are out already (R220). -/
def State.ownStore (s : State) (g : PbRegion) (slot row within act : Nat) (op : MergeOp) : State :=
  let k := slot * (g.per / unitBytes) + row
  if g.mode = 0 ∨ !s.staleUnit g slot row then (s.holderApply g slot row within act op).2.2
  else if (tabFind (s.region g.rid).rebuildLeft k).isNone then s
  else
    let ca := caddr s.pb.moduleId (g.offset slot row within)
    let m : ColdonMsg := match op with
      | .add t a d p => .add ca g.rid 0 g.digest 1 a t (b2n p) d
      | .full d p => .write ca g.rid 0 g.digest 1 (b2n p) d
      | _ => .finish
    s.modRegion g.rid (fun r => { r with stalled := r.stalled ++ [(k, s.pb.moduleId, m)] })

/-- The parity delta of a change at a line, sent to the parity holder (R207). -/
def State.sendDelta (s : State) (id : Nat) (g : PbRegion) (slot u within act : Nat) (avoid : List Nat) (delta : Bytes) (poison : Bool) : State :=
  match g.redCell u with
  | none => s
  | some c =>
    if !s.cellUse g slot avoid c then s.modAcc id (fun a => { a with degraded := true })
    else if g.member c.1 = s.pb.moduleId then s.addDelta g slot c.2 within act delta poison
    else s.remoteSend (g.member c.1) id act
      (fun tag => .delta (caddr (g.member c.1) (g.offset slot c.2 within)) g.rid tag g.digest 1 (b2n poison) delta)

/-- Sends a write or an add of one line to a holder. -/
def State.sendStore (s : State) (id : Nat) (g : PbRegion) (slot row within act m : Nat) (op : MergeOp) : State :=
  let s := { s with cav := { s.cav with remoteWrites := s.cav.remoteWrites + 1 } }
  let ca := caddr m (g.offset slot row within)
  s.remoteSend m id act (fun tag => match op with
    | .add t a d p => .add ca g.rid tag g.digest 1 a t (b2n p) d
    | .full d p => .write ca g.rid tag g.digest 1 (b2n p) d
    | _ => .finish)

/-- Continues an access whose parts have all arrived: the old value of a lost data unit gives the parity delta (R219) (DEDUCED, log 88). -/
def State.accNext (s : State) (id : Nat) : State :=
  match s.acc? id with
  | none => s
  | some a =>
    if !a.waits.isEmpty then s
    else
      let go := fun (op : MergeOp) =>
        match s.pb.region? a.rid with
        | none => s.accDone a
        | some g =>
          if a.lost || a.poison ≠ 0 || a.status ≠ 0 then s.accDone { a with lost := true }
          else
            let old := slice a.data 0 64
            let new := op.apply (old, false)
            let s := s.modAcc id (fun a => { a with what := .msg, data := [] })
            (s.sendDelta id g a.slot (a.off / unitBytes) (a.off % unitBytes) a.act [] (xorBytes old new.1) new.2).accCheck id
      match a.what with
      | .oldThenWr d p => go (.full d p)
      | .oldThenAdd t f d p => go (.add t f d p)
      | _ => s.accDone a

/-- Issues an access along its route, avoiding some modules (R206, R207, R219). -/
def State.cvnIssue (s : State) (id : Nat) (avoid : List Nat) : State :=
  match s.acc? id with
  | none => s
  | some a =>
    match s.pb.region? a.rid with
    | none => (s.modAcc id (fun a => { a with status := 2, refuser := s.pb.moduleId })).accCheck id
    | some g =>
      let u := a.off / unitBytes
      let within := a.off % unitBytes
      let c := g.dataCell u
      -- a unit of this module that is not rebuilt takes the write with its rebuild: from the copy or the parity that the same write goes to (R220)
      let own := fun (s : State) (x : Nat × Nat) (op : MergeOp) => s.ownStore g a.slot x.2 within a.act op
      let store := fun (op : MergeOp) (rebuildOld : CvnDo) =>
        if g.mode = 0 then
          if !s.cellUse g a.slot avoid c then s.modAcc id (fun a => { a with lost := true })
          else if g.member c.1 = s.pb.moduleId then (s.holderApply g a.slot c.2 within a.act op).2.2
          else s.sendStore id g a.slot c.2 within a.act (g.member c.1) op
        else if g.mode = 1 then
          let cells := [c] ++ (match g.redCell u with | some x => [x] | none => [])
          -- a unit that is not rebuilt yet is written too (R220)
          let live := cells.filter (fun x => !avoid.contains (g.member x.1) && (g.member x.1 == s.pb.moduleId || s.cellOk g a.slot x))
          if live.isEmpty then s.modAcc id (fun a => { a with lost := true })
          else live.foldl (fun s x =>
            if g.member x.1 = s.pb.moduleId then own s x op
            else s.sendStore id g a.slot x.2 within a.act (g.member x.1) op)
            (s.modAcc id (fun a => { a with degraded := a.degraded || decide (live.length < cells.length) }))
        else if s.cellUse g a.slot avoid c then
          (if g.member c.1 = s.pb.moduleId then
            let r := s.holderApply g a.slot c.2 within a.act op
            r.2.2.sendDelta id g a.slot u within a.act avoid (xorBytes r.1.1 r.2.1.1) r.2.1.2
          else
            -- its holder sends the delta: without a parity holder the write runs with reduced redundancy (R219)
            let s := s.modAcc id (fun a => { a with degraded := a.degraded || !(match g.redCell u with
              | some x => s.cellUse g a.slot avoid x
              | none => true) })
            s.sendStore id g a.slot c.2 within a.act (g.member c.1) op)
        else
          -- the data unit is lost: its old plaintext is rebuilt first
          let s := s.modAcc id (fun a => { a with what := rebuildOld, degraded := true })
          s.readParts id g a.slot c.2 within 1 a.act false false ((g.member c.1) :: avoid) c.1
      let s := match a.what with
        | .rd n coded pre => (match a.cell with
          | some x => s.readParts id g a.slot x.2 a.off n a.act coded pre (s.pb.moduleId :: avoid) x.1
          | none => s.readParts id g a.slot c.2 within n a.act coded pre avoid c.1)
        | .wr d p => store (.full d p) (.oldThenWr d p)
        | .add t f d p => store (.add t f d p) (.oldThenAdd t f d p)
        | _ => s
      s.accNext id

/-- Opens and issues an access. -/
def State.cvn (s : State) (who : CvnFor) (rid slot off act : Nat) (what : CvnDo) : State :=
  let a := s.newAcc { id := 0, who := who, rid := rid, slot := slot, off := off, act := act, what := what }
  a.2.cvnIssue a.1 []

/-! ### Answers and losses -/

/-- Takes the answer to a request of this module: `f` records it in its access. -/
def State.remoteDone (s : State) (peer rtag : Nat) (f : CvnAcc → CvnAcc) : State :=
  match s.cav.remote.find? (fun r => r.peer == peer && r.rtag == rtag) with
  | none => s
  | some r =>
    let s := { s with cav := { s.cav with remote := s.cav.remote.filter (fun x => !(x.peer == peer && x.rtag == rtag)) } }
    (s.modAcc r.acc (fun a =>
      let b := f { a with waits := a.waits.filter (· != rtag) }
      { b with refuser := if b.status = 2 ∧ a.status ≠ 2 then peer else a.refuser })).accNext r.acc

/-- A request meets a peer that cannot be reached: it is served with what redundancy is left, or ends (R208, R217, R219, R232). -/
def State.remoteLost (s : State) (r : Remote) : State :=
  let s := { s with cav := { s.cav with remote := s.cav.remote.filter (fun x => x.rtag != r.rtag || x.peer != r.peer) } }
  match s.acc? r.acc with
  | none => s
  | some a =>
    let mode := ((s.pb.region? a.rid).map (·.mode)).getD 0
    let again := match a.what with
      | .rd _ _ _ => mode != 0
      | .wr _ _ | .add _ _ _ _ => decide (2 ≤ mode)
      | .oldThenWr _ _ | .oldThenAdd _ _ _ _ => false
      | .msg => false
    if again then
      -- its other parts are forgotten and it starts over without the lost peer
      let s := { s with cav := { s.cav with remote := s.cav.remote.filter (fun x => x.acc != a.id) } }
      (s.modAcc a.id (fun a => { a with waits := [], data := [], poison := 0, degraded := true })).cvnIssue a.id [r.peer]
    else
      let keep := match a.who with
        | .answer _ _ | .answerOp _ _ _ _ | .mirror | .ack _ _ | .fire => true
        | _ => match a.what with | .wr _ _ | .add _ _ _ _ => mode == 1 | _ => false
      (s.modAcc a.id (fun a => { a with
        waits := a.waits.filter (· != r.rtag), degraded := true, lost := a.lost || !keep })).accNext a.id

/-- Drops what a peer was to be answered. -/
def State.forgetPeer (s : State) (peer : Nat) : State :=
  { s with cav := { s.cav with
      accs := s.cav.accs.map (fun (a : CvnAcc) => match a.who with
        | .serve p _ | .ack p _ => if p = peer then { a with who := .fire } else a
        | .answer p _ => if p = peer then { a with who := .mirror } else a
        | _ => a),
      heldReads := s.cav.heldReads.filter (fun (h : HeldRead) => h.peer != peer) } }

end Sys2Proof.Machine
end

