-- ==== Sys2Proof/Machine/CxlMem.lean ====
section
/-! DEFINITION. CXL.mem: reads, writes, apertures, back-invalidate, deep-tier returns, merge-buffer writes and egress expansion (R24, R42 to R53, R56, R126, R281). -/

namespace Sys2Proof.Machine

/-! ### Serving a request -/

def State.setWait (s : State) (id : Nat) (w : ReqWait) : State :=
  { s with host := { s.host with reqs := s.host.reqs.map (fun r => if r.id == id then { r with wait := w } else r) } }

/-- The expanded bytes of a block in an expander's area. -/
def State.staged (s : State) (e blk : Nat) : Option Bytes := ((tabGet [] s.mem.staging e).find? (fun x => x.1 == blk)).map (·.2)

/-- Puts an expanded block into an area of 256 blocks, least recently used first out (R126). -/
def State.stage (s : State) (e blk : Nat) (bs : Bytes) : State :=
  { s with mem := { s.mem with staging := tabMod [] s.mem.staging e (fun l =>
      let l := l.filter (fun x => x.1 != blk) ++ [(blk, bs)]
      l.drop (l.length - 256)) } }

/-- A copy of a block above the deep tier bypasses the expanders: RAW, ZERO, or LEGACY, which the sealing engine decodes as it is read (R126, R129). -/
def MapEnt.plain (e : MapEnt) : Bool := e.mode != modeGolas

/-- Answers a read of a line, reports its poison (R51), and records what its LD holds (R44). -/
def State.answerRd (s : State) (r : HostReq) (v : Bytes × Bool) : State :=
  let s := s.dropReq r.id
  let s := if v.2 then s.reportPoison r.part r.line none else s
  let s := s.respond r.port r.ld r.tag v.1 v.2
  let db := ((s.pb.range? r.part r.range).map (·.kind)).getD 0 == 1
  if db then s.setHolder r.line (ldIdx r.port r.ld) r.mv else s

/-- Completes a write and records what its LD holds. -/
def State.answerWr (s : State) (r : HostReq) : State :=
  let s := (s.dropReq r.id).complete r.port r.ld r.tag
  let db := ((s.pb.range? r.part r.range).map (·.kind)).getD 0 == 1
  if db then s.setHolder r.line (ldIdx r.port r.ld) r.mv else s

/-- Counts a load at its tag pipeline, once (R91). -/
def State.countReq (s : State) (r : HostReq) : State :=
  if r.counted || r.op == .spec then s
  else
    let s := s.countRd (64 * r.line) 1
    { s with host := { s.host with reqs := s.host.reqs.map (fun x => if x.id == r.id then { x with counted := true } else x) } }

/-- A load at its tag pipeline of a line that lies in the near tier, in a merge buffer or in hand: counted and charged. -/
def State.hitLine (s : State) (r : HostReq) : State :=
  ((s.nearTouch (r.line / 64) (fun t => { t with hit := true })).nearHit r.line r.part).countReq r

/-- A host write to an unsealed line of the module's own deep tier (R44, R51, Table 4-1) (DEDUCED, log 123). -/
def State.hostStore (s : State) (part line hint : Nat) (op : MergeOp) (poison : Bool) : State :=
  let s := s.storeLine part hint line op part
  -- a partial write to a poisoned line leaves its mark, with its source (R281)
  let src := if poison then tabSet s.mem.poisonSrc line 1 else if (s.lineAt line).2 then s.mem.poisonSrc else tabDel s.mem.poisonSrc line
  let s := { s with mem := { s.mem with poisonSrc := src } }
  s.countWr (64 * line) 1

/-- A host add through an aperture at its tag pipeline; a poisoned one poisons the target line (R47). -/
def State.hostAdd (s : State) (part line : Nat) (bf16 : Bool) (d : Bytes) (poison : Bool) : State :=
  let s := (s.addToLine line bf16 bf16 (slice d 0 64) poison part).countWr (64 * line) 1
  if poison then { s with mem := { s.mem with poisonSrc := tabSet s.mem.poisonSrc line 1 } } else s

/-- The write-back by which a snooped holder gives up its modified line: a write of the line by an LD whose BISnp of it is out (R49, Table 2-4). -/
def State.isWriteBack (s : State) (r : HostReq) : Bool :=
  (match r.op with | .wr .. | .wrPtl .. => true | _ => false) &&
    s.host.bi.any (fun b => b.line == r.line && b.ldIdx == ldIdx r.port r.ld && b.sentAt.isSome)

/-- Serves a request that holds an entry, as far as it can go now: it answers, or waits for snoops, a recovery, the deep tier, an expander or the
cavern. `errs` are the symbol errors a near-tier read of the line meets. R49 does not list MemInv and MemInvNT: with MetaValue Any they conflict as a
write does, otherwise as another read (DEDUCED, log 48) (DEDUCED, log 66) (DESIGN CHOICE, log 130). -/
def State.serveReq (s : State) (id : Nat) (errs : List SymErr) : State :=
  match s.host.reqs.find? (fun r => r.id == id) with
  | none => s
  | some r =>
    match s.pb.range? r.part r.range with
    | none => (s.dropReq id)
    | some rng =>
      let blk := r.line / 64
      let sealed := s.isSealed r.part r.range
      let off := (if rng.regionId = 0 then 64 * r.line - rng.maBase else 64 * r.line % 2 ^ 56)
      let hint := s.hintAt rng r.range off
      let isRd := match r.op with | .rd | .spec => true | _ => false
      let own := some (ldIdx r.port r.ld)
      -- discards on the link (R46, R48)
      let discard := match r.op with
        | .rd | .spec | .inv => false
        | _ => sealed
      -- snoops (R49)
      let k : Snoops := if (isRd || r.op == .inv) && r.mv != .any then .data else .inv
      let sn := if rng.kind = 1 && !discard && !s.isWriteBack r then s.snoop r.line own k else (false, s)
      let room := if !sn.1 && rng.kind = 1 && (r.mv == .any || r.mv == .shared) then sn.2.snoopRoom r.line else (false, sn.2)
      if sn.1 || room.1 then room.2.setWait id .snoop
      else
        let s := room.2
        if discard then
          let s := s.modPart r.part (fun x => { x with sealedWrites := x.sealedWrites + 1 })
          (s.logEv .sealedWrite r.part (ldIdx r.port r.ld) (s.part r.part).sealedWrites r.dpa).answerWr r
        else
          if isRd && rng.regionId == 0 && s.ras.recov.any (fun x => x.block == blk) then
            s.setWait id (match r.wait with | .recovery t => .recovery t | _ => .recovery s.clk.hmesh)
          else match r.op with
          | .rd | .spec =>
            if rng.regionId ≠ 0 then
              (s.setWait id .cavern).cvn (.host id) rng.regionId 0 off r.part (.rd 1 false false)
            else
              let ent := s.ent? blk
              let coded := match ent with | some e => !e.plain | none => false
              let zero := match ent with | some e => e.mode == modeZero | none => false
              match s.staged (s.expander r.port) blk with
              | some bs =>
                if coded then
                  (s.stage (s.expander r.port) blk bs).answerRd r (slice bs (64 * (r.line % 64)) 64, setHas (s.poisonOf blk) r.line)
                else s.setWait id .deep
              | none =>
                match s.nearFind blk with
                | some _ =>
                  if coded then (s.hitLine r).setWait id .expand
                  else
                    let e := s.readNearErrs r.line errs
                    let v := if zero then (List.replicate 64 0, setHas (e.2.poisonOf blk) r.line) else e.2.lineAt r.line
                    (e.2.hitLine r).answerRd r v
                | none =>
                  if zero then (s.countReq r).answerRd r (List.replicate 64 0, setHas (s.poisonOf blk) r.line)
                  else s.setWait id .deep
          | .inv => s.answerWr r
          | .wr d p =>
            if rng.regionId ≠ 0 then (s.setWait id .cavern).cvn (.host id) rng.regionId 0 off r.part (.wr (slice d 0 64) p)
            else (s.hostStore r.part r.line hint (.full (slice d 0 64) p) p).answerWr r
          | .wrPtl d m p =>
            if rng.regionId ≠ 0 then (s.setWait id .cavern).cvn (.host id) rng.regionId 0 off r.part (.rd 1 false false)
            else (s.hostStore r.part r.line hint (.part d m p) p).answerWr r
          | .apt b d p =>
            if rng.regionId ≠ 0 then (s.setWait id .cavern).cvn (.host id) rng.regionId 0 off r.part (.add b b (slice d 0 64) p)
            else (s.hostAdd r.part r.line b d p).answerWr r

/-! ### Arrival -/

/-- The state of a request that a port takes off its link. -/
inductive Arrive where
  /-- The port is down, or the LD is not enabled. -/
  | none
  /-- A read is answered with all ones and poison; a write is discarded with Cmp. -/
  | blocked
  | unmapped (part : Nat)
  | ok (part : Nat) (t : Tgt)
deriving DecidableEq, Repr

/-- IDE protects the port's CXL.mem traffic now, or is required and not established (R56). -/
def State.ideBlocked (s : State) (port : Nat) : Bool :=
  let st := (s.port port).cachemem.st
  st == .insecure || (bit s.pb.ideRequired port && st != .secure)

/-- Where a request goes: link, IDE, partition state and decoders (R42, R56, R60, R78). -/
def State.arrive (s : State) (port ld hpa : Nat) : Arrive :=
  if !s.hubUp || decide (8 ≤ port) || (s.port port).link != .l0 || !s.ldEnabled port ld then .none
  else if s.ideBlocked port then .blocked
  else match s.pb.partOfLd (ldIdx port ld) with
    | none => .blocked
    | some p =>
      if (s.part p).st ≠ 0 then .blocked
      else match s.resolveHpa (ldIdx port ld) hpa with
        | none => .unmapped p
        | some t => .ok p t

/-- Counts a request that matches no decoder (R42) (DESIGN CHOICE, log 98). -/
def State.unmappedAt (s : State) (p port ld : Nat) : State :=
  let s := s.modPart p (fun x => { x with unmapped := x.unmapped + 1 })
  s.logEv .decoderUnmapped p (ldIdx port ld) (s.part p).unmapped 0

/-- A request record before it is admitted. An access through an aperture takes no holding (R42, R44). -/
def mkReq (port ld tag part : Nat) (t : Tgt) (op : ReqOp) (mv : Meta) : HostReq :=
  { id := 0, port := port, ld := ld, tag := tag, dpa := t.dpa, part := part, range := t.span.idx, line := t.line, op := op,
    mv := if t.span.apt then .noOp else mv,
    reserve := false, wait := .deep }

/-- Takes a request into an entry and serves it. -/
def State.admitReq (s : State) (r : HostReq) (errs : List SymErr) : State :=
  let id := s.host.nextReq
  (({ s with host := { s.host with nextReq := id + 1 } } : State).addReq { r with id := id }).serveReq id errs

/-- A write-back of a line that the LD held when it was declared dead is discarded and counted (R50). -/
def State.deadWrite (s : State) (port ld p : Nat) (t : Tgt) : Bool :=
  t.span.rng.kind == 1 && !t.span.apt && setHas (s.ld (ldIdx port ld)).deadLines t.line && decide (p < 64)

/-- Counts what a dead host sent for a line, with the running count of its partition (R50, Table 17-4). -/
def State.biDiscard (s : State) (p i dpa : Nat) : State :=
  let s := if p = 0xFF then s else s.modPart p (fun x => { x with biDiscards := x.biDiscards + 1 })
  s.logEv .biDiscard p i (s.part p).biDiscards dpa

/-- A request that has an entry (Table 2-3). -/
def State.memNow (s : State) (port ld : Nat) (c : MemCmd) : State :=
  match c with
  | .rd tag hpa mv errs metaLost =>
    (match s.arrive port ld hpa with
    | .none => s
    | .blocked => s.respond port ld tag onesLine true
    | .unmapped p => (s.unmappedAt p port ld).respond port ld tag onesLine true
    | .ok p t => (if metaLost then s.loseMeta t.line else s).admitReq (mkReq port ld tag p t .rd mv) errs)
  | .specRd hpa =>
    (match s.arrive port ld hpa with
    | .unmapped p => s.unmappedAt p port ld
    | .ok p t =>
      let hint := s.hintAt t.span.rng t.span.idx t.off
      if t.span.apt || s.isSealed p t.span.idx || t.span.rng.regionId ≠ 0 || (s.nearFind (t.line / 64)).isSome || (hint ≠ 0 && hint ≠ 1) then s
      else
        let id := s.host.nextReq
        ({ s with host := { s.host with nextReq := id + 1 } } : State).addReq { mkReq port ld 0 p t .spec .noOp with id := id, wait := .deep }
    | _ => s)
  | .inv tag hpa mv =>
    (match s.arrive port ld hpa with
    | .none => s
    | .blocked => s.complete port ld tag
    | .unmapped p => (s.unmappedAt p port ld).complete port ld tag
    | .ok p t =>
      if t.span.rng.kind = 1 && !t.span.apt && !s.isSealed p t.span.idx then s.admitReq (mkReq port ld tag p t .inv mv) [] else s.complete port ld tag)
  | .clnEvct tag hpa =>
    (match s.arrive port ld hpa with
    | .none => s
    | .blocked => s.complete port ld tag
    | .unmapped p => (s.unmappedAt p port ld).complete port ld tag
    | .ok p t =>
      if t.span.rng.kind = 1 && !t.span.apt && !s.isSealed p t.span.idx then
        (s.setHolder t.line (ldIdx port ld) .invalid).complete port ld tag
      else s.complete port ld tag)
  | .wr tag hpa mv data poison =>
    (match s.arrive port ld hpa with
    | .none => s
    | .blocked => s.complete port ld tag
    | .unmapped p => (s.unmappedAt p port ld).complete port ld tag
    | .ok p t =>
      if s.deadWrite port ld p t then (s.biDiscard p (ldIdx port ld) t.dpa).complete port ld tag
      else
        let op : ReqOp := if t.span.apt then .apt t.span.rng.aptBf16 (slice data 0 64) poison else .wr (slice data 0 64) poison
        s.admitReq (mkReq port ld tag p t op mv) [])
  | .wrPtl tag hpa mv data mask poison =>
    (match s.arrive port ld hpa with
    | .none => s
    | .blocked => s.complete port ld tag
    | .unmapped p => (s.unmappedAt p port ld).complete port ld tag
    | .ok p t =>
      if s.deadWrite port ld p t then (s.biDiscard p (ldIdx port ld) t.dpa).complete port ld tag
      else if t.span.apt && !s.isSealed p t.span.idx then
        let s := s.modPart p (fun x => { x with aptPartials := x.aptPartials + 1 })
        (s.logEv .aperturePartial p (ldIdx port ld) (s.part p).aptPartials t.dpa).complete port ld tag
      else s.admitReq (mkReq port ld tag p t (.wrPtl (slice data 0 64) mask poison) mv) [])

/-- Serves again the requests that waited for snoops, and gives entries to those that wait at ingress, in order of arrival; an LD that has no entry is
passed by the others (R49, R53). -/
def State.pumpReqs (s : State) : State :=
  let s := s.host.reqs.foldl (fun s r =>
    match r.wait with
    | .snoop => s.serveReq r.id []
    | _ => s) s
  s.host.ingress.foldl (fun s x =>
    if s.entryFree x.port x.ld && s.host.ingress.any (fun (y : Ingress) => y.id == x.id) then
      ({ s with host := { s.host with ingress := s.host.ingress.filter (fun (y : Ingress) => y.id != x.id) } } : State).memNow x.port x.ld x.cmd
    else s) s

/-- Forced failures of TST_REPLAY at a port: the link replays the transfer until its check passes, so a transfer received uses them up (R367, Table 18-6) (DESIGN CHOICE, log 114). -/
def State.forcedAt (s : State) (port : Nat) : State :=
  if s.wq.tstReplay % 16 = port ∧ port < 8 then { s with wq := { s.wq with tstReplay := s.wq.tstReplay % 16 } } else s

/-- Takes a request off a port's link: its MAC is checked first (R56), and without a free entry it waits at ingress behind its LD's earlier ones (R53). -/
def State.takeMem (s : State) (port ld : Nat) (macOk : Bool) (c : MemCmd) : State :=
  let s := s.forcedAt port
  if !macOk && s.macChecked port .cachemem then s.macFail port .cachemem
  else if s.entryFree port ld && !s.host.ingress.any (fun x => x.port == port && x.ld == ld) then (s.memNow port ld c).settleTables.pumpReqs
  else if s.hubUp && decide (port < 8) && (s.port port).link == .l0 && s.ldEnabled port ld then
    let id := s.host.nextReq
    { s with host := { s.host with nextReq := id + 1, ingress := s.host.ingress ++ [{ id := id, port := port, ld := ld, cmd := c }] } }
  else s

/-- MEMRD: a load (R24, R44, R51). -/
def execMemrd (port ld tag hpa : Nat) (mv : Meta) (macOk : Bool) (errs : List SymErr) (metaLost : Bool) (q : List QBurst) (s : State) : Out :=
  .next ((s.takeMem port ld macOk (.rd tag hpa mv errs metaLost)).qBursts q)

/-- MEMSPECRD: a hint to begin the deep-tier fill of a block; ignored for apertures and sealed ranges, and never answered (Table 2-3). -/
def execMemspecrd (flit : FlitAt) (ld hpa : Nat) (s : State) : Out := .next (s.takeMem flit.port ld flit.macOk (.specRd hpa))

/-- MEMINV, MEMINVNT: updates the snoop filter on HDM-DB, once the holders it conflicts with have answered; returns Cmp (R44, R49). -/
def execMeminv (flit : FlitAt) (ld tag hpa : Nat) (mv : Meta) (s : State) : Out := .next (s.takeMem flit.port ld flit.macOk (.inv tag hpa mv))

/-- MEMCLNEVCT: the LD gives a clean line up (R44). -/
def execMemclnevct (flit : FlitAt) (ld tag hpa : Nat) (s : State) : Out := .next (s.takeMem flit.port ld flit.macOk (.clnEvct tag hpa))

/-- MEMWR: a store, or an add when its address lies in an aperture (R44, R46, R47, R51). -/
def execMemwr (port ld tag hpa : Nat) (mv : Meta) (macOk : Bool) (data : Bytes) (poison : Bool) (s : State) : Out :=
  .next (s.takeMem port ld macOk (.wr tag hpa mv data poison))

/-- MEMWRPTL: a partial store; discarded in an aperture (R44, R46, R48). -/
def execMemwrptl (flit : FlitAt) (ld tag hpa : Nat) (mv : Meta) (data : Bytes) (mask : List Bool) (poison : Bool) (s : State) : Out :=
  .next (s.takeMem flit.port ld flit.macOk (.wrPtl tag hpa mv data mask poison))

/-! ### Back-invalidate (R49, R50) -/

/-- The BISnp of a line to an LD that left its port and has no answer. -/
def State.biFind (s : State) (line i : Nat) : Option BiOut :=
  s.host.bi.find? (fun b => b.line == line && b.ldIdx == i && b.sentAt.isSome)

/-- The DPA at which an LD sees a line (R39); 0 when it does not. -/
def State.dpaOf (s : State) (i line : Nat) : Nat :=
  ((s.pb.layout i).findSome? (fun x =>
    if !x.apt && x.rng.regionId == 0 && decide (x.rng.maBase ≤ 64 * line) && decide (64 * line < x.rng.maBase + x.size)
    then some (x.base + (64 * line - x.rng.maBase)) else none)).getD 0

/-- BIRSP: a holder answers a snoop, with its write-back when it held the line modified; the requests that waited are served (R49).
An answer of a dead host for a line it held is discarded and counted (R50); while the stream is Insecure the write-back is discarded (R56)
(DEDUCED, log 86). -/
def execBirsp (flit : FlitAt) (ld line : Nat) (st : BiState) (wb : Option (Bytes × Bool)) (s : State) : Out :=
  let port := flit.port
  let i := ldIdx port ld
  if (s.port port).link ≠ .l0 then .next s
  else if !flit.macOk && s.macChecked port .cachemem then .next (s.macFail port .cachemem)
  else match s.biFind line i with
  | none => if setHas (s.ld i).deadLines line then .next (s.biDiscard ((s.pb.partOfLd i).getD 0xFF) i (s.dpaOf i line)) else .next s
  | some _ =>
    let p := s.partOfAddr (64 * line)
    let s := match if s.ideBlocked port then none else wb with
      | some w =>
        let hint := match s.pb.ownerOf (64 * line) with
          | some (_, idx, off, rng) => s.hintAt rng idx off
          | none => 2
        s.hostStore p line hint (.full (slice w.1 0 64) w.2) w.2
      | none => s
    let s := s.setHolder line i (if st = .s then .shared else .invalid)
    let s := { s with host := { s.host with bi := s.host.bi.filter (fun b => !(b.line == line && b.ldIdx == i)) } }
    .next s.pumpSnp.pumpReqs

/-- BICONFLICT: answered with BIConflictAck (R49). -/
def execBiconflict (flit : FlitAt) (ld line : Nat) (s : State) : Out :=
  let port := flit.port
  if !flit.macOk && s.macChecked port .cachemem then .next (s.macFail port .cachemem)
  else if (s.biFind line (ldIdx port ld)).isSome && (s.port port).link == .l0 then .next (s.emit (.biConflictAck port ld line)) else .next s

/-- HMESH cycles of the back-invalidate timeout of a port, in ms (R50, Table 16-9). -/
def State.biLimit (s : State) (port : Nat) : Nat := ((s.pb.port? port).map (·.biTimeout)).getD 10 * 1400000

/-- BI_TIMEOUT: a holder that has not answered within the timeout is declared dead (R50). -/
def execBiTimeout (port ld line : Nat) (s : State) : Out :=
  match s.biFind line (ldIdx port ld) with
  | none => .next s
  | some b =>
    if s.clk.hmesh < b.sentAt.getD 0 + s.biLimit port then .next s
    else .next ((s.declareDead (ldIdx port ld)).pumpSnp.pumpReqs)

/-! ### Data return (R24, R126, R277, R281) -/

/-- The sealing engine decodes a LEGACY block that is read from the deep tier; what does not decode is damaged, and goes to recovery unless that has failed (R127 to R129). -/
def State.decodeRead (s : State) (blk : Nat) (legacy : Bool) : State :=
  if !legacy || s.ras.recov.any (fun x => x.block == blk) || (tabFind s.ras.gone blk).isSome then s
  else match s.plainBlock blk with
    | .ok _ => s.countLegacy
    | .error d => s.countLegacy.damageBlk blk d false

/-- DEEP_READ_RETURN: the deep tier returns what a waiting request reads, with the symbol errors met: the line, or the whole block when the hint
allocates it or the block is sealed. -/
def execDeepReadReturn (id : Nat) (errs : List SymErr) (s : State) : Out :=
  match s.host.reqs.find? (fun r => r.id == id && r.wait == .deep) with
  | none => .next s
  | some r =>
    match s.pb.range? r.part r.range with
    | none => .next s
    | some rng =>
      let blk := r.line / 64
      let hint := s.hintAt rng r.range (64 * r.line - rng.maBase)
      let ent := s.ent? blk
      let coded := match ent with | some e => !e.plain | none => false
      -- a LEGACY block is read whole and decoded as it is read (R129)
      let legacy := (ent.any (fun e => e.mode == modeLegacy)) && (s.nearFind blk).isNone
      let fill := (hint == 0 || hint == 1) && (s.nearFind blk).isNone
      let secs := sectorsAbove ent
      let lines := if coded || legacy || fill then (List.range (4 * (match ent with | some e => e.sectors | none => 16))).map (64 * blk + ·) else [r.line]
      let n := 64 * lines.length
      let ask : DeepAsk := { line := r.line, act := r.part, rd := true }
      if s.ras.recov.any (fun x => x.block == blk) then .next (s.setWait id (.recovery s.clk.hmesh))
      else if s.deepStopped blk r.part n || !s.deepTurn ask then .next s
      else
        let clean := !setHas s.mem.deepPoison r.line
        let e := s.readDeepLines lines errs
        if e.1 = .locating then .next e.2
        else
          let s := (e.2.grantDeep ask (lines.head?.getD 0 % 64) lines.length).countReq r
          let s := s.decodeRead blk legacy
          if s.ras.recov.any (fun x => x.block == blk) then
            .next (if r.op = .spec then s.dropReq id else s.setWait id (.recovery s.clk.hmesh)).settleTables
          else
            let plain := if legacy then (match s.plainBlock blk with | .ok bs => slice bs (64 * (r.line % 64)) 64 | .error _ => deadLine r.line) else (s.lineAt r.line).1
            let gone := legacy && (tabFind s.ras.gone blk).isSome
            let s := if fill then
                (match s.nearFill blk r.part .clean (hint == 1) false with
                  | some s => s.chargeNear blk r.part (256 * secs)
                  | none => s.noRoom blk r.part (hint == 1))
              else s
            if r.op = .spec then .next (s.dropReq id).settleTables.pumpReqs
            else if coded then .next (s.setWait id .expand).settleTables
            else
              -- an access that arrived later does not change what the load returns (R24); an error of this read does
              let v := match r.val with
                | some v => (v.1, v.2 || (clean && e.1 == .uncorrectable && setHas e.2.mem.deepPoison r.line))
                | none => (plain, (s.lineAt r.line).2 || gone)
              .next ((s.nearTouch blk (fun t => { t with hit := true })).answerRd r v).settleTables.pumpReqs

/-- EGRESS_EXPANSION_DONE: an expander has expanded a block; the port's loads of it are served from its area (R126), or the block is damaged and
goes to recovery (R127, R128). Table 1-2 names no absorber for the loss of both expanders of a pair: the sealed loads of both ports then wait
(DESIGN CHOICE, log 134). -/
def execEgressExpansionDone (port blk : Nat) (s : State) : Out :=
  let e := s.expander port
  let waiting := s.host.reqs.filter (fun r => r.wait == .expand && s.expander r.port == e && r.line / 64 == blk)
  if waiting.isEmpty || s.isFailed (.egressExpander e) then .next s
  else match s.mem.expanding.find? (fun x => x.blk == blk && waiting.any (fun r => x.reqs.contains r.id)) with
  | some x =>
    -- a form that was replaced meanwhile is expanded with its own table, and serves the loads that came before (R122)
    let mine := waiting.filter (fun r => x.reqs.contains r.id)
    let s := { s with mem := { s.mem with expanding := s.mem.expanding.filter (fun y => y != x) } }
    (match expandForm x.ent (s.tableFor blk x.ent) x.bytes with
    | .ok bs => .next ((mine.foldl (fun s r => s.answerRd r (slice bs (64 * (r.line % 64)) 64, setHas x.marks r.line)) s).settleTables.pumpReqs)
    | .error d => .next (mine.foldl (fun s r => s.setWait r.id .deep) (s.countDamage d)).settleTables)
  | none => match s.plainBlock blk with
    | .ok bs =>
      let marks := s.poisonOf blk
      .next ((waiting.foldl (fun s r => s.answerRd r (slice bs (64 * (r.line % 64)) 64, setHas marks r.line)) (s.stage e blk bs)).settleTables.pumpReqs)
    | .error d =>
      if (tabFind s.ras.gone blk).isSome then
        -- its recovery has failed: every line is returned with poison (R51)
        .next ((waiting.foldl (fun s r => s.answerRd r (deadLine r.line, true)) s).pumpReqs)
      else
      let s := s.damageBlk blk d (s.nearFind blk).isSome
      .next (waiting.foldl (fun s r => s.setWait r.id (.recovery s.clk.hmesh)) s).settleTables

/-- MERGE_BUFFER_WRITE: a pair grants a write of its merge buffer: the oldest entry of the activity whose turn it is, with one read before a partial write or an add. Entries
for one line keep their order (R24, R246, R268, R281). -/
def execMergeBufferWrite (pair : Nat) (errs : List SymErr) (s : State) : Out :=
  let q := s.mergeQ pair
  let may := fun (e : MergeEnt) => !s.deepHeld (e.line / 64) && s.mayGrant pair e.act (if e.op.reads then 128 else 64) &&
    (s.drains (e.line / 64) || s.deepTurn { line := e.line, act := e.act, rd := false }) && (q.find? (fun x => x.line == e.line)) == some e
  match q.find? may with
  | none => .next s
  | some e =>
    let rd := if e.op.reads then s.readDeep e.line 0 errs else (.done, s)
    -- an uncorrectable read drained the block's entries already
    if rd.1 = .locating ∨ rd.1 = .uncorrectable then .next rd.2
    else
      let s := rd.2
      let s := s.grantDeep { line := e.line, act := e.act, rd := false } (e.line % 64) (if e.op.reads then 2 else 1)
      let s := s.putDeep e.line (e.op.apply (s.deepLine e.line))
      .next ({ s with mem := { s.mem with merge := tabSet s.mem.merge pair (q.erase e) } } : State).endDrains

end Sys2Proof.Machine
end

