-- ==== Sys2Proof/Machine/ReduceOps.lean ====
section
/-! DEFINITION. Reduction groups: joining, contributions, sums and aborts (R173, R174, R222, R223). -/

namespace Sys2Proof.Machine

/-- Element format of a REDUCE code: 0 FP32, 1 BF16, 2 FP16 (Table 7-14), and its bytes. -/
def redFmt (c : Nat) : FFmt × Nat := if c = 0 then (fp32, 4) else if c = 1 then (bf16, 2) else (fp16, 2)

/-- Rounding mode of an RND code (R158). -/
def rndOf (c : Nat) : Rnd := if c = 1 then .rtz else if c = 2 then .sr else .rne

def PromptBook.group? (b : PromptBook) (g : Nat) : Option PbGroup := b.groups.find? (fun x => x.group == g)

/-- Rank of this module in a group. -/
def State.rankIn (s : State) (g : PbGroup) : Option Nat := g.members.findIdx? (fun m => m.1 == s.pb.moduleId)

/-- First element of segment r of `count` elements over m members (R223). -/
def segStart (m count r : Nat) : Nat := r * count / max m 1

def State.redn? (s : State) (group rseq : Nat) : Option Redn := s.cav.redns.find? (fun x => x.group == group && x.rseq == rseq)

def State.modRedn (s : State) (group rseq : Nat) (f : Redn → Redn) : State :=
  { s with cav := { s.cav with redns := s.cav.redns.map (fun x => if x.group == group && x.rseq == rseq then f x else x) } }

/-- A message is a REDUCE_JOIN of a REDUCE. -/
def msgJoins (m : ColdonMsg) (group rseq : Nat) : Bool :=
  match m with
  | .reduceJoin g q _ _ _ => g == group && q == rseq
  | _ => false

def State.dropRedn (s : State) (group rseq : Nat) : State :=
  { s with cav := { s.cav with
    redns := s.cav.redns.filter (fun x => !(x.group == group && x.rseq == rseq))
    remote := s.cav.remote.filter (fun r => !msgJoins r.msg group rseq) } }

/-- Sends a message to every other member of a group. -/
def State.toGroup (s : State) (g : PbGroup) (act : Nat) (m : ColdonMsg) : State :=
  g.members.foldl (fun s x => if x.1 = s.pb.moduleId then s else s.sendSeq x.1 act m) s

/-- Ends this member's part of a REDUCE; RESULT counts the members whose contributions it has summed (R165). -/
def State.endRedn (s : State) (group rseq status detail : Nat) : State :=
  match s.redn? group rseq with
  | none => s
  | some r =>
    let s := s.dropRedn group rseq
    match r.op with
    | some id => s.endOp id status detail (r.got.map (·.1)).eraseDups.length
    | none => s

/-- COUNT, SFMT, DFMT, KIND and AVG agree (R173). -/
def redAgree (a b : Nat × Nat) : Bool := a.1 / 1024 == b.1 / 1024 && a.2 == b.2

/-- The members' parameters differ, or a second REDUCE names one in flight: every member completes GROUP_MISMATCH (R173). -/
def State.redMismatch (s : State) (g : PbGroup) (rseq : Nat) : State :=
  (s.toGroup g actColdon (.reduceAbort g.group 2 rseq)).endRedn g.group rseq stBadDescriptor 21

/-- The descriptor parameters of the local REDUCE. -/
def State.redParams (s : State) (r : Redn) : Option (Nat × Nat) :=
  (r.op.bind s.op?).map (fun o => (o.flags, o.fieldAt 32 4))

/-- A member's REDUCE_JOIN (R173). -/
def State.redJoin (s : State) (peer group rseq rank flags count : Nat) : State :=
  match s.pb.group? group with
  | none => s
  | some g =>
    if (g.members[rank]?.map (·.1)) ≠ some peer then s
    else
      let s := if (s.redn? group rseq).isSome then s
        else { s with cav := { s.cav with redns := s.cav.redns ++ [{ group := group, rseq := rseq }] } }
      let s := s.modRedn group rseq (fun r =>
        if r.joined.any (fun j => j.1 == rank) then r else { r with joined := r.joined ++ [(rank, flags, count)] })
      match s.redn? group rseq with
      | none => s
      | some r =>
        match s.redParams r with
        | some p => if redAgree p (flags, count) then s else s.redMismatch g rseq
        | none => s

/-- The FP32 values of `n` elements of a format in a byte string. -/
def redValues (fmt n : Nat) (d : Bytes) : List Nat :=
  let f := redFmt fmt
  (List.range n).map (fun i => f32Bits (fdecode f.1 (leAt d (f.2 * i) f.2)))

/-- Takes contributions of a rank to consecutive elements of the own segment, in order of arrival (R223). -/
def State.redTake (s : State) (group rseq rank elem : Nat) (vals : List Nat) (bad : List Nat) : State :=
  s.modRedn group rseq (fun r =>
    ((List.range vals.length).zip vals).foldl (fun (r : Redn) x =>
      let e := elem + x.1
      if r.got.contains (rank, e) then r
      else
        let sum := match tabFind r.sums e with
          | some b => f32Bits (fadd (f32 b) (f32 x.2))
          | none => x.2
        { r with got := r.got ++ [(rank, e)], sums := tabSet r.sums e sum, poison := if bad.contains e then setAdd r.poison e else r.poison }) r)

/-- The reduced value of an element in DFMT: the sum, times 1/m under AVG, rounded (R173). -/
def redResult (flags m sum : Nat) : Nat :=
  let v := f32 sum
  let v := if bit flags 10 then roundRne fp32 (fmul v (roundRne fp32 (frcpExact 60 (.fin false m 0)))) else v
  let d := bits flags 13 12
  if d = 0 then f32Bits v else (narrow (.flt (redFmt d).1) (rndOf (bits flags 9 8)) (bit flags 7) v 0).1

/-- Bytes of `n` result elements from `e`, zero-padded to whole lines, and the poison mark of each line. -/
def redBytes (r : Redn) (fmt e n : Nat) : Bytes × Nat :=
  let w := (redFmt fmt).2
  let d := (List.range n).flatMap (fun i => leBytes w (tabGet 0 r.result (e + i)))
  let lines := ceilDiv (w * n) 64
  (slice d 0 (64 * lines),
    ((List.range lines).map (fun l =>
      if (List.range (64 / w)).any (fun j => decide (l * (64 / w) + j < n) && setHas r.poison (e + l * (64 / w) + j)) then 2 ^ l else 0)).sum)

/-- Rounds the own segment once every contribution is in, and sends it to the other members under ALLREDUCE (R223). -/
def State.redFinish (s : State) (group rseq : Nat) : State :=
  match s.pb.group? group, s.redn? group rseq with
  | some g, some r =>
    match s.rankIn g, r.op.bind s.op? with
    | some k, some o =>
      let m := g.members.length
      let count := o.fieldAt 32 4
      let a := segStart m count k
      let b := segStart m count (k + 1)
      if r.got.length < m * (b - a) then s
      else
        let flags := o.flags
        let r := { r with result := (List.range (b - a)).foldl (fun t i =>
          tabSet t (a + i) (redResult flags m (tabGet 0 r.sums (a + i)))) r.result }
        let s := s.modRedn group rseq (fun _ => r)
        if bit flags 11 then s
        else
          let fmt := bits flags 13 12
          let per := 8192 / (redFmt fmt).2
          (List.range (ceilDiv (b - a) per)).foldl (fun s i =>
            let e := a + per * i
            let n := min per (b - e)
            let d := redBytes r fmt e n
            s.toGroup g o.part (.reduceSum group k fmt rseq e d.2 d.1)) s
    | _, _ => s
  | _, _ => s

/-- Elements of a message: whole lines of its format, cut at the end of the segment. -/
def redElems (fmt len limit elem : Nat) : Nat := min (len / (redFmt fmt).2) (limit - elem)

/-- Elements of the poisoned lines of a message. -/
def redBad (fmt elem poison n : Nat) : List Nat :=
  let per := 64 / (redFmt fmt).2
  ((List.range n).filter (fun i => bit poison (i / per))).map (elem + ·)

/-- Data of a REDUCE that a reset of this module has ended: discarded and counted (R78). -/
def State.lateContrib (s : State) (group rseq : Nat) : State :=
  if s.cav.abortedRedns.contains (group, rseq) then { s with cav := { s.cav with lateContribs := s.cav.lateContribs + 1 } } else s

/-- REDUCE_DATA: a contribution to the own segment (R223). -/
def State.redData (s : State) (peer group rank fmt rseq elem poison : Nat) (d : Bytes) : State :=
  match s.pb.group? group, s.redn? group rseq with
  | some g, some r =>
    match s.rankIn g, r.op.bind s.op? with
    | some k, some o =>
      let m := g.members.length
      let b := segStart m (o.fieldAt 32 4) (k + 1)
      if (g.members[rank]?.map (·.1)) ≠ some peer ∨ elem < segStart m (o.fieldAt 32 4) k then s
      else
        let n := redElems fmt d.length b elem
        (s.redTake group rseq rank elem (redValues fmt n d) (redBad fmt elem poison n)).redFinish group rseq
    | _, _ => s
  | _, none => s.lateContrib group rseq
  | _, _ => s

/-- REDUCE_SUM: a reduced segment of another member, up to the end of that member's segment (R223). -/
def State.redSum (s : State) (group rank fmt rseq elem poison : Nat) (d : Bytes) : State :=
  match s.redn? group rseq with
  | none => s.lateContrib group rseq
  | some r =>
    match r.op.bind s.op? with
    | none => s
    | some o =>
      let m := ((s.pb.group? group).map (·.members.length)).getD 1
      let n := redElems fmt d.length (segStart m (o.fieldAt 32 4) (rank + 1)) elem
      let w := (redFmt fmt).2
      s.modRedn group rseq (fun r => { r with
        result := (List.range n).foldl (fun t i => tabSet t (elem + i) (leAt d (w * i) w)) r.result,
        poison := setUnion r.poison (redBad fmt elem poison n) })

/-- Ends a REDUCE whose abort names a reason: GROUP_MISMATCH, or ABORTED GROUP_ABORT. -/
def State.abortRedn (s : State) (group rseq reason : Nat) : State :=
  if reason = 2 then s.endRedn group rseq stBadDescriptor 21 else s.endRedn group rseq stAborted dtGroupAbort

/-- REDUCE_ABORT (R78, R173, R174). One that arrives before this module's descriptor, for a REDUCE others have joined, ends it when it comes (DEDUCED, log 58). -/
def State.redAbort (s : State) (group reason rseq : Nat) : State :=
  match s.redn? group rseq with
  | none => s
  | some r => match r.op with
    | none => s.modRedn group rseq (fun r => { r with aborted := some reason })
    | some _ => s.abortRedn group rseq reason

/-- A member of a group is lost: every REDUCE with it completes PEER_LOST (R174). -/
def State.redPeerLost (s : State) (peer : Nat) : State :=
  s.cav.redns.foldl (fun s r =>
    match s.pb.group? r.group with
    | some g => if g.members.any (fun m => m.1 == peer) then s.endRedn r.group r.rseq stPeerUnreachable 31 else s
    | none => s) s

end Sys2Proof.Machine
end

