-- ==== Sys2Proof/Machine/Cavern.lean ====
section
/-! DEFINITION. Coldon messages as the hub die takes them, sessions, timers and ports (R201, R206, R210 to R239). -/

namespace Sys2Proof.Machine

/-! ### Loss of a session or of a peer (R215 to R219, R232, R238) -/

/-- A session has ended: what it carried ends as for an unreachable peer (R232); `gone`: the peer is declared unreachable (R238). -/
def State.sessionLost (s : State) (peer : Nat) (gone : Bool) : State :=
  let s := if !gone then s
    else
      let s := { s with cld := { s.cld with unreachable := (s.cld.unreachable.filter (· != peer)) ++ [peer] } }
      let s := (s.pb.regions.filter (fun g => g.members.contains peer)).foldl (fun s g =>
        if (s.region g.rid).lostMembers.contains peer then s
        else
        let s := (s.modRegion g.rid (fun r => { r with lostMembers := r.lostMembers ++ [peer] })).logEv .cvnMemberLost 0xFF peer 1 g.rid
        -- a member that reaches no other member is itself the one that is lost (DESIGN CHOICE, log 94)
        let others := g.members.filter (· != s.pb.moduleId)
        if (s.memberIdx g).isSome && others.all (fun m => (s.region g.rid).lostMembers.contains m) then s.modRegion g.rid (fun r => { r with cutOff := true })
        else s) s
      -- the regions homed here that it mirrors go on without a mirror (R217)
      (s.pb.regions.filter (fun g => g.kind == 1 && g.altHome == peer)).foldl (fun s g => s.loseMirror g) s
  let lost := s.cav.remote.filter (fun r => r.peer == peer && (gone || r.sent))
  let s := lost.foldl (fun s r => if s.cav.remote.any (fun x => x.rtag == r.rtag && x.peer == r.peer) then s.remoteLost r else s) s
  let s := (s.forgetPeer peer).dropImports peer
  let s := s.redPeerLost peer
  if !gone then s
  else
    let s := { s with gol := { s.gol with slots := s.gol.slots.map (fun (x : Nat × GSlot) => (x.1, { x.2 with importers := x.2.importers.filter (· != peer) })) } }
    (s.settleTables).endModule peer

/-- Ends a session and what it carried. -/
def State.dropSession (s : State) (peer : Nat) (gone : Bool) : State := (s.endSession peer).sessionLost peer gone

/-- This module rejoins as a lost member: at its first session after a start, or after it was cut off from every other member. Every unit it holds is stale, whether or not
its data plane was reset: it poisons its NONE units and rebuilds the others (R220) (DESIGN CHOICE, log 94). -/
def State.rejoin (s : State) : State :=
  (s.pb.regions.filter (fun g => ((s.region g.rid).unitsStale || (s.region g.rid).cutOff) && (s.memberIdx g).isSome)).foldl (fun s g =>
    let s := s.modRegion g.rid (fun r => { r with unitsStale := false, cutOff := false })
    if g.mode = 0 then
      let first := (s.shareBase + g.stripeBase) / 64
      let s := (List.range (g.nslots * g.per / 64)).foldl (fun s i => s.setPoison (first + i) 0) s
      { s with cav := { s.cav with lostUnits := s.cav.lostUnits + g.nslots * g.per / unitBytes } }
    else s.modRegion g.rid (fun r => { r with rebuilding := true, rebuildRow := 0, rebuildLeft := [], rebuildBad := [], rebuilt := [], stalled := [] })) s

/-- A member that presents a new session after a module reset has been lost: recorded once for each of its regions, as a member declared unreachable has been already
(R219). Its CLOSE gave REASON 1, or its old session never ended here (DESIGN CHOICE, log 94). -/
def State.memberReset (s : State) (peer : Nat) : State :=
  if !(s.cld.resetPeers.contains peer || (s.sess? peer).isSome) then s
  else (s.pb.regions.filter (fun g => g.members.contains peer && !(s.region g.rid).lostMembers.contains peer)).foldl
    (fun s g => s.logEv .cvnMemberLost 0xFF peer 1 g.rid) s

/-- Sends what waited for a session with a peer (R238). -/
def State.sendHeld (s : State) (peer : Nat) : State :=
  (s.cav.remote.filter (fun r => r.peer == peer && !r.sent)).foldl (fun s r =>
    match r.msg with
    | .reduceJoin g q _ _ _ =>
      -- it has no answer: nothing waits for it once it is sent
      let s := { s with cav := { s.cav with remote := s.cav.remote.filter (fun y => y.rtag != r.rtag || y.peer != peer) } }
      s.sendSeq peer ((((s.redn? g q).bind (·.op)).bind s.op?).map (·.part) |>.getD actColdon) r.msg
    | _ =>
      let s := { s with cav := { s.cav with remote := s.cav.remote.map (fun (y : Remote) =>
        if y.peer == peer && y.rtag == r.rtag then { y with sent := true } else y) } }
      s.sendSeq peer (((s.acc? r.acc).map (·.act)).getD actColdon) r.msg) s

/-- A session is established: an old one is replaced, the peer has presented a new session (R215, R231); the initiator sends FINISH, and then what waited is sent
(R226, R231, R238). -/
def State.sessionUp (s : State) (x : Sess) (finish : Bool) : State :=
  let peer := x.peer
  let s := s.memberReset peer
  let s := if (s.sess? peer).isSome then s.dropSession peer false else s
  let s := s.endModule peer
  let s := { s with cld := { s.cld with
    sessions := s.cld.sessions ++ [x], half := s.cld.half.filter (fun h => h.peer != peer), unreachable := s.cld.unreachable.filter (· != peer)
    resetPeers := s.cld.resetPeers.filter (· != peer) } }
  let s := if finish then s.sendFrame peer none false .finish else s
  let s := s.pb.regions.foldl (fun s g =>
    if (s.region g.rid).lostMembers.contains peer then
      s.modRegion g.rid (fun r => { r with lostMembers := r.lostMembers.filter (· != peer) }) else s) s
  let s := (s.logEv .sessionUp 0xFF peer 1 0).rejoin
  let s := (s.pb.regions.filter (fun g => g.kind == 1)).foldl (fun s g =>
    let s := if g.altHome == peer && s.isHome g && (s.region g.rid).homeNow.isNone then
        (s.modRegion g.rid (fun r => { r with mirrorLost := false })).resendMirror g else s
    s.announce peer g) s
  s.sendHeld peer

/-! ### Serving (R200, R202, R206, R207, R220) -/

/-- What a holder answers before it serves a request: DESC_MISMATCH, BAD_OFFSET, or 0. -/
def State.holderCheck (s : State) (rid digest ca lines : Nat) : Nat :=
  match s.pb.region? rid with
  | none => 2
  | some g =>
    if g.digest ≠ digest then 2
    else if ca / 2 ^ 44 ≠ s.pb.moduleId ∨ s.share < ca % 2 ^ 44 + 64 * lines ∨ ca % 2 ^ 44 < g.stripeBase ∨
        g.stripeBase + g.nslots * g.per < ca % 2 ^ 44 + 64 * lines then 1
    else 0

/-- Slot, row and offset in the unit of an offset of this module's footprint. -/
def PbRegion.locate (g : PbRegion) (off : Nat) : Nat × Nat × Nat :=
  let rel := off - g.stripeBase
  (rel / max g.per 1, rel % max g.per 1 / unitBytes, rel % unitBytes)

/-- The data unit at a cell of a parity region; none at its parity cell. -/
def PbRegion.unitAt (g : PbRegion) (c : Nat × Nat) : Option Nat :=
  let b := c.1 / g.n * g.n
  let st := (c.2 * g.w + b) / g.n
  let p := c.2 % g.n
  let j := c.1 - b
  if j = p then none else some (st * (g.n - 1) + (if j < p then j else j - 1))

/-- Gives the lines of a READ to the module that asked: this module itself, or a peer. -/
def State.giveRead (s : State) (peer rtag lines : Nat) (coded : Bool) (v : Bytes × Nat × Nat) : State :=
  if peer = s.pb.moduleId then s.remoteDone peer rtag (fun a => { a with data := xorInto a.data v.1, poison := a.poison ||| v.2.1, mapent := v.2.2 })
  else ({ s with cav := { s.cav with served := s.cav.served + lines } }).sendSeq peer actColdon
    (.readRsp rtag 0 v.2.1 (if coded then v.2.2 else 0) v.1)

/-- Answers a READ with the lines of the share, or keeps it until a recovery ends or its pair grants it (R253, R271, R287). -/
def State.answerRead (s : State) (peer rtag ma lines act : Nat) (coded : Bool) : State :=
  match s.takeShare ma lines act coded with
  | (some v, s) => s.giveRead peer rtag lines coded v
  | (none, s) => s.holdRead peer rtag ma lines act coded

/-- Tries the reads of the share again that no recovery holds. -/
def State.wakeReads (s : State) : State :=
  s.cav.heldReads.foldl (fun s h =>
    if (shareBlks h.ma h.lines).any (fun b => s.ras.recov.any (fun r => r.block == b)) || s.shareStopped h.ma h.lines h.act then s
    else ({ s with cav := { s.cav with heldReads := s.cav.heldReads.filter (fun (x : HeldRead) => x.id != h.id) } } : State).answerRead h.peer h.rtag h.ma h.lines h.act
      h.coded) s

/-- READ at the holder (R206). -/
def State.serveRead (s : State) (peer ca rid rtag digest lines : Nat) (pre coded : Bool) : State :=
  let st := s.holderCheck rid digest ca lines
  if st ≠ 0 then s.sendSeq peer actColdon (.readRsp rtag st 0 0 [])
  else match s.pb.region? rid with
    | none => s
    | some g =>
      let off := ca % 2 ^ 44
      let l := g.locate off
      let ma := s.shareBase + off
      let i := (s.memberIdx g).getD 0
      let s := if pre then s else s.countRd ma lines
      if g.mode ≠ 0 && s.staleUnit g l.1 l.2.1 then
        let a := s.newAcc { id := 0, who := .serve peer rtag, rid := rid, slot := l.1, off := l.2.2, act := actColdon, what := .rd lines false false, cell := some (i, l.2.1) }
        (a.2.readParts a.1 g l.1 l.2.1 l.2.2 lines actColdon false false [s.pb.moduleId] i).accCheck a.1
      else s.answerRead peer rtag ma lines actColdon coded

/-- Starts the rebuild of a row: eight chunks of 128 lines from the copy or the stripe (R220); its traffic is best-effort (R243). -/
def State.startRow (s : State) (g : PbRegion) (i k : Nat) : State :=
  let rows := max (g.per / unitBytes) 1
  let s := s.modRegion g.rid (fun r => { r with rebuildLeft := tabSet r.rebuildLeft k 8 })
  (List.range 8).foldl (fun s c =>
    let a := s.newAcc { id := 0, who := .rebuild g.rid k c, rid := g.rid, slot := k / rows, off := 8192 * c, act := actRebuild, what := .rd 128 false false,
                        cell := some (i, k % rows) }
    (a.2.readParts a.1 g (k / rows) (k % rows) (8192 * c) 128 actRebuild false false [s.pb.moduleId] i).accCheck a.1) s

/-- Answers a WRITE, an ADD or a DELTA; this module's own needs no answer. -/
def State.giveAck (s : State) (peer rtag st : Nat) : State :=
  if peer = s.pb.moduleId then s else s.sendSeq peer actColdon (.writeAck rtag st)

/-- WRITE or ADD at the holder, with the parity delta where the mode has one (R207). To a unit that is not rebuilt yet: its row is rebuilt at once, the write waits for that,
and the unit counts as rebuilt (R220) (DESIGN CHOICE, log 94). -/
def State.serveStore (s : State) (peer ca rid rtag digest lines : Nat) (m : ColdonMsg) (op : Nat → MergeOp) : State :=
  let st := s.holderCheck rid digest ca lines
  if st ≠ 0 then s.giveAck peer rtag st
  else match s.pb.region? rid with
    | none => s
    | some g =>
      let l := g.locate (ca % 2 ^ 44)
      let i := (s.memberIdx g).getD 0
      let k := l.1 * (g.per / unitBytes) + l.2.1
      if g.mode ≠ 0 && s.staleUnit g l.1 l.2.1 then
        let s := s.modRegion rid (fun r => { r with stalled := r.stalled ++ [(k, peer, m)] })
        if (s.region rid).rebuilding && (tabFind (s.region rid).rebuildLeft k).isNone then s.startRow g i k else s
      else
      let a := s.newAcc { id := 0, who := .ack peer rtag, rid := rid, slot := l.1, act := actColdon }
      let s := (List.range lines).foldl (fun s j =>
        let w := l.2.2 + 64 * j
        let r := s.holderApply g l.1 l.2.1 w actColdon (op j)
        let s := r.2.2
        match if g.n = 0 then none else g.unitAt (i, l.2.1) with
        | some u => s.sendDelta a.1 g l.1 u w actColdon [] (xorBytes r.1.1 r.2.1.1) r.2.1.2
        | none => s) a.2
      s.accCheck a.1

/-- A WRITE or an ADD. -/
def State.serveWrite (s : State) (peer : Nat) (m : ColdonMsg) : State :=
  match m with
  | .write ca rid tag dg n p d => s.serveStore peer ca rid tag dg n m (fun j => .full (slice d (64 * j) 64) (bit p j))
  | .add ca rid tag dg n af tf p d => s.serveStore peer ca rid tag dg n m (fun j => .add tf af (slice d (64 * j) 64) (bit p j))
  | _ => s

/-- Takes up the writes whose row has been rebuilt (R220). -/
def State.serveStalled (s : State) : State :=
  (s.pb.regions.filter (fun g => !(s.region g.rid).stalled.isEmpty)).foldl (fun s g =>
    (s.region g.rid).stalled.foldl (fun s w =>
      let rows := max (g.per / unitBytes) 1
      if s.staleUnit g (w.1 / rows) (w.1 % rows) then s
      else (s.modRegion g.rid (fun r => { r with stalled := r.stalled.erase w })).serveWrite w.2.1 w.2.2) s) s

/-- DELTA at the parity holder (R207, R220). -/
def State.serveDelta (s : State) (peer ca rid rtag digest lines poison : Nat) (d : Bytes) : State :=
  let st := s.holderCheck rid digest ca lines
  if st ≠ 0 then s.sendSeq peer actColdon (.writeAck rtag st)
  else match s.pb.region? rid with
    | none => s
    | some g =>
      let l := g.locate (ca % 2 ^ 44)
      let s := (List.range lines).foldl (fun s j =>
        s.applyDelta g l.1 l.2.1 (l.2.2 + 64 * j) peer actColdon (slice d (64 * j) 64) (bit poison j)) s
      s.sendSeq peer actColdon (.writeAck rtag 0)

/-- Copies `n` bytes of this module's share from address a to address b, with marks, valid bits and map entries (R211), charged to `act`. -/
def State.copyShare (s : State) (a b n act : Nat) : State :=
  let inSpan := fun (x : Nat) => (decide (a ≤ x) && decide (x < a + n)) || (decide (b ≤ x) && decide (x < b + n))
  let s := (s.mem.tags.filter (fun t => inSpan (4096 * t.blk))).foldl (fun s t => s.evictBlk t.blk) s
  let s := ((s.mem.merge.flatMap (·.2)).filter (fun e => inSpan (64 * e.line))).foldl (fun s e => s.drainBlk (e.line / 64)) s
  let s := (List.range (n / 4096)).foldl (fun s i => (s.useDeep (a / 4096 + i) 0 64 act).useDeep (b / 4096 + i) 0 64 act) s
  let shift := fun (set : NSet) (unit : Nat) => setUnion (setClear set (b / unit) (n / unit))
    ((set.filter (fun x => decide (a / unit ≤ x) && decide (x < (a + n) / unit))).map (fun x => x + b / unit - a / unit))
  { s with mem := { s.mem with
      deep := memReplace s.mem.deep b n ((memWindow s.mem.deep a n).map (fun c => (c.1 + b - a, c.2))),
      deepPoison := shift s.mem.deepPoison 64,
      valid := shift s.mem.valid 256,
      -- the base of an UNSEAL, or of a further SEAL, is sealed: its map entries go with the bytes (R110, R205)
      bmap := ((s.mem.bmap.filter (fun e => decide (a / 4096 ≤ e.1) && decide (e.1 < (a + n) / 4096))).map (fun e => (e.1 + b / 4096 - a / 4096, e.2))).foldl
        (fun t e => tabSet t e.1 e.2) (s.mem.bmap.filter (fun e => decide (e.1 < b / 4096) || decide ((b + n) / 4096 ≤ e.1))) } }

/-- The data unit at a cell of a NONE or MIRROR region, or one that is its copy. -/
def PbRegion.unitOf (g : PbRegion) (c : Nat × Nat) : Nat :=
  if g.mode = 0 then c.2 * g.w + c.1
  else if c.2 % 2 = 0 then c.2 / 2 * g.w + c.1 else c.2 / 2 * g.w + (c.1 + g.w - 1) % g.w

/-- Copies this module's units of the base slot into the new slot, but those that lie wholly inside the span, which its bytes overwrite; of a parity region every unit,
so that the deltas of the span's writes give the new parity (R207, R211) (DEDUCED, log 88). -/
def State.fillSlot (s : State) (g : PbRegion) (base new off len act : Nat) : State :=
  let i := (s.memberIdx g).getD 0
  (List.range (g.per / unitBytes)).foldl (fun s row =>
    let u := g.unitOf (i, row)
    if g.mode ≤ 1 ∧ off ≤ u * unitBytes ∧ (u + 1) * unitBytes ≤ off + len then s
    else s.copyShare (s.shareBase + g.offset base row 0) (s.shareBase + g.offset new row 0) unitBytes act) s

/-- FILL at a member (R211). -/
def State.serveFill (s : State) (peer rid rtag digest base new off len : Nat) : State :=
  match s.pb.region? rid with
  | some g =>
    if g.digest ≠ digest then s.sendSeq peer actColdon (.writeAck rtag 2)
    else (s.fillSlot g base new off len actColdon).sendSeq peer actColdon (.writeAck rtag 0)
  | none => s.sendSeq peer actColdon (.writeAck rtag 2)

/-- A region request at this module: refused unless it is the home, and taken after those before it (R202, R210, Table 10-5). -/
def State.atHome (s : State) (peer rid rtag digest part : Nat) (what : HomeDo) : State :=
  match s.pb.region? rid with
  | none => s.sendSeq peer actColdon (.regionRsp rtag 2 0 0 0)
  | some g =>
    let e := (s.region rid).epoch
    if g.digest ≠ digest then s.sendSeq peer actColdon (.regionRsp rtag 2 0 e 0)
    else if g.kind = 0 || !s.isHome g then s.sendSeq peer actColdon (.regionRsp rtag 4 0 e 0)
    else s.homeTake g ⟨.peer peer rtag, peer, rtag, part, what⟩

/-- MIRROR at ALT_HOME (R217, R218) (DESIGN CHOICE, log 89). -/
def State.takeMirror (s : State) (peer rid rtag epoch : Nat) (c : Change) : State :=
  match s.pb.region? rid with
  | none => s.sendSeq peer actColdon (.regionRsp rtag 2 0 0 0)
  | some g =>
    let r := s.region rid
    if g.altHome ≠ s.pb.moduleId then s.sendSeq peer actColdon (.regionRsp rtag 4 0 r.epoch 0)
    else if epoch < r.epoch then s.sendSeq peer actColdon (.regionRsp rtag 3 0 r.epoch 0)
    else
      let s := s.modRegion rid (fun r => r.modVs c.slot (fun v =>
        if c.kind = 0 then
          (if c.st = 0 then {}
           else if c.st = 1 then { st := .writing, version := c.version, writer := some (c.module, 0, c.part) }
           else { v with st := VSt.ofCode c.st, version := c.version, writer := none })
        -- the base pin of a reservation (R211)
        else if c.st = 1 then { v with basePins := if c.kind = 1 then v.basePins + 1 else v.basePins - 1 }
        else if c.kind = 1 then { v with pins := v.pins ++ [(c.module, c.part)] }
        else { v with pins := v.pins.erase (c.module, c.part) }))
      s.sendSeq peer actColdon (.regionRsp rtag 0 c.slot r.epoch c.version)

/-- A former home that learns of a higher epoch stops acting for the region: what waits at it is answered NOT_HOME (R218, R228). -/
def State.stopHome (s : State) (rid epoch newHome : Nat) : State :=
  let r := s.region rid
  let s := s.modRegion rid (fun r => { r with epoch := max r.epoch epoch, homeNow := some newHome, waitq := [], inq := [] })
  (r.waitq.map (fun w => s.resvAsker w) ++ r.inq.map (·.asker)).foldl (fun s a => s.giveAnswer a epoch 4 0 0) s

/-- PROMOTE (R218). -/
def State.takePromote (s : State) (rid epoch newHome : Nat) : State :=
  if epoch ≤ (s.region rid).epoch then s else (s.stopHome rid epoch newHome).failPublishes rid

/-- TABLE_FETCH at the home module (R216) (DEDUCED, log 91). -/
def State.serveTable (s : State) (peer rid rtag digest slot gen : Nat) : State :=
  let none' := fun st => s.sendSeq peer actColdon (.tableRsp rtag st slot gen 0 (List.replicate 256 0))
  match s.pb.region? rid with
  | none => none' 2
  | some g =>
    let t := s.slot slot
    if g.digest ≠ digest then none' 2
    else if !s.isHome g then none' 4
    else if t.imp || !(t.st == 2 || t.st == 3) || t.gen ≠ gen then none' 6
    else
      let s := s.modSlot slot (fun t => { t with importers := (t.importers.filter (· != peer)) ++ [peer] })
      let s := s.sendSeq peer actColdon (.tableRsp rtag 0 slot gen t.fmt t.lens)
      -- a slot that has left LIVE already (R216)
      if t.st = 3 then s.sendSeq peer actColdon (.tableDrop slot gen) else s

/-- TABLE_RSP at the importer (R216). -/
def State.takeTable (s : State) (peer rtag status fmt : Nat) (lens : List Nat) : State :=
  match (s.cav.remote.find? (fun r => r.peer == peer && r.rtag == rtag)).bind (fun r => s.acc? r.acc) with
  | none => s
  | some a =>
    let s := match a.who with
      | .table n =>
        if status = 0 then
          ({ s with cav := { s.cav with tableImports := s.cav.tableImports + 1 } }).modSlot n (fun g => { g with st := 2, fmt := fmt, lens := lens })
        else s
      | _ => s
    s.remoteDone peer rtag (fun a => { a with status := status })

/-! ### Dispatch of messages (R227, R228) -/

/-- REGION_RSP: an answer from a home with a lower epoch is refused; STALE_EPOCH tells a former home to stop (R218, R228). -/
def State.takeRegionRsp (s : State) (peer rtag status slot epoch version : Nat) : State :=
  match (s.cav.remote.find? (fun r => r.peer == peer && r.rtag == rtag)).bind (fun r => s.acc? r.acc) with
  | none => s
  | some a =>
    let r := s.region a.rid
    if status = 3 then
      let alt := ((s.pb.region? a.rid).map (·.altHome)).getD 0
      let s := s.stopHome a.rid epoch alt
      s.remoteDone peer rtag (fun a => match a.who with
        | .answer p (.regionRsp tag _ _ _ _) => { a with who := .answer p (.regionRsp tag 4 0 epoch 0) }
        | .answerOp id _ _ _ => { a with who := .answerOp id 4 0 0 }
        | _ => { a with status := 4 })
    else if status ≠ 2 ∧ epoch < r.epoch then s.remoteDone peer rtag (fun a => { a with status := 4 })
    else
      let s := if r.epoch < epoch then s.modRegion a.rid (fun r => { r with epoch := epoch }) else s
      s.remoteDone peer rtag (fun a => { a with status := status, rslot := slot, version := version })

/-- Takes a sequenced or control message of an established session. -/
def State.handle (s : State) (peer : Nat) (m : ColdonMsg) : State :=
  match m with
  | .hello _ | .helloRsp _ | .finish | .ack _ | .pong _ | .nak .. => s
  | .ping c => s.sendFrame peer none false (.pong c)
  | .close r => ({ s with cld := { s.cld with resetPeers := s.cld.resetPeers.filter (· != peer) ++ (if r = 1 then [peer] else []) } } : State).dropSession peer false
  | .read ca rid tag dg n pre coded => s.serveRead peer ca rid tag dg n pre coded
  | .readRsp tag st p e d => s.remoteDone peer tag (fun a => { a with
      status := if a.status = 0 then st else a.status, data := xorInto a.data d, poison := a.poison ||| p, mapent := e })
  | .write .. | .add .. => s.serveWrite peer m
  | .delta ca rid tag dg n p d => s.serveDelta peer ca rid tag dg n p d
  | .writeAck tag st => s.remoteDone peer tag (fun a => { a with status := if a.status = 0 then st else a.status })
  | .reserve rid tag dg base part => s.atHome peer rid tag dg part (.reserve base false)
  | .commit rid tag dg base part k => s.atHome peer rid tag dg part (.commit base k false)
  | .abandon rid tag dg part k => s.atHome peer rid tag dg part (.abandon k)
  | .acquire rid tag dg v part => s.atHome peer rid tag dg part (.acquire v)
  | .release rid tag dg part => s.atHome peer rid tag dg part .release
  | .regionRsp tag st k e v => s.takeRegionRsp peer tag st k e v
  | .fill rid tag dg b n off len => s.serveFill peer rid tag dg b n off len
  | .mirror rid tag e ch k m p st v => s.takeMirror peer rid tag e { kind := ch, slot := k, module := m, part := p, st := st, version := v }
  | .promote rid e h => s.takePromote rid e h
  | .tableFetch rid tag dg k gen => s.serveTable peer rid tag dg k gen
  | .tableRsp tag st _ _ fmt lens => s.takeTable peer tag st fmt lens
  | .tableDrop k gen =>
    ({ s with gol := { s.gol with slots := s.gol.slots.map (fun (x : Nat × GSlot) =>
        if x.2.imp && x.2.home == peer && x.2.homeSlot == k && x.2.homeGen == gen then (x.1, { x.2 with dropped := true }) else x) } }).settleTables
  | .tableRelease k gen =>
    if (s.slot k).gen = gen then (s.modSlot k (fun g => { g with importers := g.importers.filter (· != peer) })).settleTables else s
  | .reduceJoin g q r f c => s.redJoin peer g q r f c
  | .reduceData g r f q e p d => s.redData peer g r f q e p d
  | .reduceSum g r f q e p d => s.redSum g r f q e p d
  | .reduceAbort g r q => s.redAbort g r q

/-- A frame that carries a message arrives: the receive checks, then what they let pass, in SEQ order (R234, R239). -/
def State.coldonMsg (s : State) (f : Frame) (m : ColdonMsg) : State :=
  if !(s.dataUp && (s.cport f.port).up) then s
  else
    let had := s.sess? f.src
    let r := s.receive f m
    let s := if had.isSome && (r.s.sess? f.src).isNone then r.s.sessionLost f.src false else r.s
    let s := r.msgs.foldl (fun s m => s.handle f.src m) s
    -- the reorder buffer of the session's port has changed (R224)
    let s := match had with
      | some x => s.pfcCheck x.port
      | none => s
    ((s.serveStalled).retryLanding).pumpReqs

/-! ### The handshake (R201, R229 to R233) -/

/-- A HELLO or HELLO_RSP comes from a permitted peer under its key, and its signature over `signed` verifies (R230). -/
def State.helloOk (s : State) (b : HelloBody) (signed : Bytes) : Bool :=
  match s.pb.peer? b.moduleId with
  | none => false
  | some p => (sha512 b.idKey).take 32 == p.keyHash && b.moduleId != s.pb.moduleId && (ecPoint b.eph).isSome && ecdsaVerify b.idKey (sha512 signed) b.sig

/-- A private key of P-521 from drawn bytes. -/
def State.drawKey (s : State) : Nat × State :=
  let e := s.drawBytes 66
  (beNat e.1 % (n521 - 1) + 1, e.2)

/-- A body of this module with fresh NONCE, ephemeral key and session number, signed over `pre` and itself; its ephemeral private key (R230, R231) (DESIGN CHOICE, log 8). -/
def State.newHello (s : State) (pre : Bytes) : HelloBody × Nat × State :=
  let n := s.drawBytes 32
  let e := n.2.drawKey
  let l := e.2.draw
  let k := l.2.drawBytes 66
  let b : HelloBody := { moduleId := s.pb.moduleId, lsid := l.1.toNat % (2 ^ 32 - 1) + 1, nonce := n.1, eph := ecPublic e.1, idKey := deviceKey, sig := [] }
  ({ b with sig := ecdsaSign Config.deviceSecret (beNat k.1) (sha512 (pre ++ b.head)) }, e.1, k.2)

/-- "coldon v1 i2r" and "coldon v1 r2i" (R233). -/
def infoI2r : Bytes := bytesOf [99, 111, 108, 100, 111, 110, 32, 118, 49, 32, 105, 50, 114]
def infoR2i : Bytes := bytesOf [99, 111, 108, 100, 111, 110, 32, 118, 49, 32, 114, 50, 105]

/-- The keys of the two directions, initiator to responder first: HKDF-SHA-512 over the ECDH secret with both NONCEs as salt (R233). -/
def sessionKeys (priv : Nat) (eph nonceI nonceR : Bytes) : Bytes × Bytes :=
  let z := (ecdh priv eph).getD []
  (hkdf512 z (nonceI ++ nonceR) infoI2r 36, hkdf512 z (nonceI ++ nonceR) infoR2i 36)

/-- Sends a HELLO, new or once more, from the sending port (R230). -/
def State.putHello (s : State) (h : HalfOpen) (b : HelloBody) : State :=
  match s.sendPort with
  | none => s
  | some p =>
    let to_ := s.peerAddr h.peer p
    let h := { h with since := s.peerClock p, port := p, dst := to_, hello := some b }
    let s := { s with cld := { s.cld with half := s.cld.half.filter (fun (x : HalfOpen) => x.peer != h.peer) ++ [h] } }
    s.sendPlain p to_ h.peer h.lsid (.hello b)

/-- Sends HELLO to a peer (R230). -/
def State.sendHello (s : State) (peer : Nat) : State :=
  let h := s.newHello []
  h.2.2.putHello { peer := peer, lsid := h.1.lsid, psid := 0, eph := h.2.1, responder := false, since := 0, port := 0, dst := 0, hello := none } h.1

/-- Sends HELLO to every permitted peer with a higher ID that has no session and none on its way (R230). -/
def State.sendHellos (s : State) : State :=
  (s.pb.peers.filter (fun p => decide (s.pb.moduleId < p.moduleId) && (s.sess? p.moduleId).isNone &&
    !s.cld.half.any (fun h => h.peer == p.moduleId))).foldl (fun s p => s.sendHello p.moduleId) s

/-- A session's starting state at one end (R231, R234, R237) (DEDUCED, log 96). -/
def State.newSess (s : State) (h : HalfOpen) (psid : Nat) (dst : Option Nat) : Sess :=
  let port := (s.sendPort).getD h.port
  { peer := h.peer, lsid := h.lsid, psid := psid, txKey := h.txKey, rxKey := h.rxKey, port := port, dst := dst.getD (s.peerAddr h.peer port),
    peerCredit := s.pb.rxWindow, lastRx := s.peerClock port, lastPing := s.peerClock port }

/-- A peer presents this module's own ID, or one that an established session holds, without that peer's key: it is refused, and recorded (R201) (DEDUCED, log 82). -/
def State.dupId (s : State) (b : HelloBody) : State :=
  let s := if b.moduleId = s.pb.moduleId then
      { s with cld := { s.cld with unreachable := s.cld.unreachable.filter (· != b.moduleId) ++ [b.moduleId] } } else s
  s.logEv .cvnDupId 0xFF b.moduleId 1 0

/-- A HELLO or HELLO_RSP names an ID that is taken: this module's, or one of an established session whose key it does not present (R201, R230). -/
def State.idTaken (s : State) (b : HelloBody) : Bool :=
  b.moduleId == s.pb.moduleId || ((s.sess? b.moduleId).isSome && (match s.pb.peer? b.moduleId with
    | some p => (sha512 b.idKey).take 32 != p.keyHash
    | none => false))

/-- HELLO at the responder (R230, R231) (DEDUCED, log 82). -/
def State.takeHello (s : State) (f : Frame) (b : HelloBody) : State :=
  if s.idTaken b then s.dupId b
  else if s.pb.moduleId < b.moduleId ∨ !s.helloOk b b.head then s
  else
    let h := s.newHello b.bytes
    let s := h.2.2
    let k := sessionKeys h.2.1 b.eph b.nonce h.1.nonce
    let half : HalfOpen := { peer := b.moduleId, lsid := h.1.lsid, psid := b.lsid, txKey := k.2, rxKey := k.1, responder := true,
                             since := s.peerClock f.port, port := f.port, dst := f.srcIp, hello := none }
    let s := { s with cld := { s.cld with half := s.cld.half.filter (fun (x : HalfOpen) => x.peer != b.moduleId) ++ [half] } }
    s.sendPlain f.port f.srcIp b.moduleId h.1.lsid (.helloRsp h.1)

/-- HELLO_RSP at the initiator: keys, FINISH, and the session is established (R231). It sends to the peer's address with its own port's number until a
frame of the session arrives (R237). -/
def State.takeHelloRsp (s : State) (b : HelloBody) : State :=
  if s.idTaken b then s.dupId b
  else match s.cld.half.find? (fun h => h.peer == b.moduleId && !h.responder) with
  | none => s
  | some h => match h.hello with
    | none => s
    | some mine =>
      if !s.helloOk b (mine.bytes ++ b.head) then s
      else
        let k := sessionKeys h.eph b.eph mine.nonce b.nonce
        s.sessionUp (s.newSess { h with txKey := k.1, rxKey := k.2, eph := 0 } b.lsid none) true

/-- FINISH at the responder (R231). -/
def State.takeFinish (s : State) (f : Frame) : State :=
  match s.cld.half.find? (fun h => h.peer == f.src && h.responder && h.lsid == f.session) with
  | none => s
  | some h => s.sessionUp { s.newSess h h.psid (some f.srcIp) with rxHigh := some f.txc, rxSeen := [f.txc] } false

/-- A handshake frame: the receive checks, then `f`. -/
def State.handshake (s : State) (fr : Frame) (m : ColdonMsg) (f : State → State) : State :=
  if !(s.dataUp && (s.cport fr.port).up) then s
  else
    let r := s.receive fr m
    if r.msgs.isEmpty then r.s else (f r.s).pumpReqs

def execHello (f : Frame) (b : HelloBody) (s : State) : Out := .next (s.handshake f (.hello b) (fun s => s.takeHello f b))
def execHelloRsp (f : Frame) (b : HelloBody) (s : State) : Out := .next (s.handshake f (.helloRsp b) (fun s => s.takeHelloRsp b))
def execColdonFinish (f : Frame) (s : State) : Out :=
  .next (if (s.cld.half.any (fun h => h.peer == f.src && h.responder && h.lsid == f.session)) then s.handshake f .finish (fun s => s.takeFinish f)
    else s.coldonMsg f .finish)

/-- NAK: an established session sends PING; it does not end (R238). -/
def execNak (f : Frame) (session moduleId reason : Nat) (s : State) : Out :=
  .next (s.handshake f (.nak session moduleId reason) (fun s =>
    -- no other REASON than UNKNOWN_SESSION passes the body check
    match s.cld.sessions.find? (fun x => x.psid == session && x.peer == moduleId) with
    | some x => let c := s.draw; c.2.sendFrame x.peer none false (.ping c.1.toNat)
    | none => s))

/-! ### Messages of a session: one row each -/

def execAck (f : Frame) (blocks : List (Nat × Nat)) (s : State) : Out := .next (s.coldonMsg f (.ack blocks))
def execPing (f : Frame) (cookie : Nat) (s : State) : Out := .next (s.coldonMsg f (.ping cookie))
def execPong (f : Frame) (cookie : Nat) (s : State) : Out := .next (s.coldonMsg f (.pong cookie))
def execClose (f : Frame) (reason : Nat) (s : State) : Out := .next (s.coldonMsg f (.close reason))
def execRead (f : Frame) (ca rid rtag digest lines : Nat) (pre coded : Bool) (q : List QBurst) (s : State) : Out :=
  .next ((s.coldonMsg f (.read ca rid rtag digest lines pre coded)).qBursts q)
def execReadRsp (f : Frame) (rtag status poison mapent : Nat) (data : Bytes) (s : State) : Out :=
  .next (s.coldonMsg f (.readRsp rtag status poison mapent data))
def execWrite (f : Frame) (ca rid rtag digest lines poison : Nat) (data : Bytes) (s : State) : Out :=
  .next (s.coldonMsg f (.write ca rid rtag digest lines poison data))
def execAdd (f : Frame) (ca rid rtag digest lines : Nat) (afmt tfmt : Bool) (poison : Nat) (data : Bytes) (s : State) : Out :=
  .next (s.coldonMsg f (.add ca rid rtag digest lines afmt tfmt poison data))
def execDelta (f : Frame) (ca rid rtag digest lines poison : Nat) (data : Bytes) (s : State) : Out :=
  .next (s.coldonMsg f (.delta ca rid rtag digest lines poison data))
def execWriteAck (f : Frame) (rtag status : Nat) (s : State) : Out := .next (s.coldonMsg f (.writeAck rtag status))
def execReserve (f : Frame) (rid rtag digest base part : Nat) (s : State) : Out := .next (s.coldonMsg f (.reserve rid rtag digest base part))
def execCommit (f : Frame) (rid rtag digest base part slot : Nat) (s : State) : Out := .next (s.coldonMsg f (.commit rid rtag digest base part slot))
def execAbandon (f : Frame) (rid rtag digest part slot : Nat) (s : State) : Out := .next (s.coldonMsg f (.abandon rid rtag digest part slot))
def execColdonAcquire (f : Frame) (rid rtag digest version part : Nat) (s : State) : Out := .next (s.coldonMsg f (.acquire rid rtag digest version part))
def execColdonRelease (f : Frame) (rid rtag digest part : Nat) (s : State) : Out := .next (s.coldonMsg f (.release rid rtag digest part))
def execRegionRsp (f : Frame) (rtag status slot homeEpoch version : Nat) (s : State) : Out :=
  .next (s.coldonMsg f (.regionRsp rtag status slot homeEpoch version))
def execColdonFill (f : Frame) (rid rtag digest baseSlot newSlot offset length : Nat) (s : State) : Out :=
  .next (s.coldonMsg f (.fill rid rtag digest baseSlot newSlot offset length))
def execMirror (f : Frame) (rid rtag homeEpoch change slot module part state version : Nat) (s : State) : Out :=
  .next (s.coldonMsg f (.mirror rid rtag homeEpoch change slot module part state version))
def execPromote (f : Frame) (rid homeEpoch newHome : Nat) (s : State) : Out := .next (s.coldonMsg f (.promote rid homeEpoch newHome))
def execTableFetch (f : Frame) (rid rtag digest slot gen : Nat) (s : State) : Out := .next (s.coldonMsg f (.tableFetch rid rtag digest slot gen))
def execTableRsp (f : Frame) (rtag status slot gen fmt : Nat) (lens : List Nat) (s : State) : Out :=
  .next (s.coldonMsg f (.tableRsp rtag status slot gen fmt lens))
def execTableDrop (f : Frame) (slot gen : Nat) (s : State) : Out := .next (s.coldonMsg f (.tableDrop slot gen))
def execTableRelease (f : Frame) (slot gen : Nat) (s : State) : Out := .next (s.coldonMsg f (.tableRelease slot gen))
def execReduceJoin (f : Frame) (group rseq rank opFlags count : Nat) (s : State) : Out :=
  .next (s.coldonMsg f (.reduceJoin group rseq rank opFlags count))
def execReduceData (f : Frame) (group rank fmt rseq elem poison : Nat) (data : Bytes) (s : State) : Out :=
  .next (s.coldonMsg f (.reduceData group rank fmt rseq elem poison data))
def execReduceSum (f : Frame) (group rank fmt rseq elem poison : Nat) (data : Bytes) (s : State) : Out :=
  .next (s.coldonMsg f (.reduceSum group rank fmt rseq elem poison data))
def execReduceAbort (f : Frame) (group reason rseq : Nat) (s : State) : Out := .next (s.coldonMsg f (.reduceAbort group reason rseq))

/-! ### Timers (R230, R231, R235, R238) -/

/-- HELLO_RETRY_EXPIRY: the initiator repeats HELLO; a responder drops its half-open state. -/
def execHelloRetryExpiry (peer : Nat) (s : State) : Out :=
  if !s.dataUp then .next s
  else
    let due := fun (h : HalfOpen) => decide (h.since + peerNs (1000 * s.pb.helloRetryUs) ≤ s.peerClock h.port)
    match s.cld.half.find? (fun h => h.peer == peer) with
    | some h =>
      if !due h then .next s
      else match h.hello with
        | some b => .next (s.putHello h b)
        | none => .next { s with cld := { s.cld with half := s.cld.half.filter (fun (x : HalfOpen) => x.peer != peer) } }
    | none =>
      if (s.pb.peer? peer).isSome && decide (s.pb.moduleId < peer) && (s.sess? peer).isNone then .next (s.sendHello peer) else .next s

/-- RTO_EXPIRY: a message not acknowledged in time is sent again, with its timer doubled up to RTO_MAX; after two expiries in a row the session moves to
the peer's next address (R235, R237). -/
def execRtoExpiry (peer seq : Nat) (s : State) : Out :=
  match s.sess? peer with
  | none => .next s
  | some x =>
    match x.outst.find? (fun o => o.seq == seq && !o.sacked) with
    | none => .next s
    | some o =>
      if s.peerClock x.port < o.sentAt + peerNs o.rtoNs then .next s
      else
        let move := o.expiries % 2 = 1
        let ips := ((s.pb.peer? peer).map (·.ips)).getD []
        let next := (ips[((ips.findIdx? (· == x.dst)).getD 0 + 1) % max ips.length 1]?).getD x.dst
        let s := s.modSess peer (fun y => { y with
          dst := if move then next else y.dst,
          outst := y.outst.map (fun p => if p.seq == seq then
            { p with sentAt := s.peerClock y.port, rtoNs := min (2 * p.rtoNs) s.pb.rtoMaxNs, expiries := p.expiries + 1 } else p) })
        .next (s.resend peer o)

/-- ACK_DELAY_EXPIRY (R235). -/
def execAckDelayExpiry (peer : Nat) (s : State) : Out :=
  match s.sess? peer with
  | none => .next s
  | some x =>
    match x.ackSince with
    | none => .next s
    | some t => if s.peerClock x.port < t + peerNs s.pb.ackDelayNs then .next s else .next (s.ackNow peer)

/-- IDLE_PING_EXPIRY (R238). -/
def execIdlePingExpiry (peer : Nat) (s : State) : Out :=
  match s.sess? peer with
  | none => .next s
  | some x =>
    let now := s.peerClock x.port
    let lim := peerNs (1000 * s.pb.idlePingUs)
    if now < x.lastRx + lim ∨ now < x.lastPing + lim then .next s
    else
      let c := s.draw
      .next ((c.2.modSess peer (fun y => { y with lastPing := now })).sendFrame peer none false (.ping c.1.toNat))

/-- LIVENESS_LIMIT_EXPIRY: a peer that has not been heard for the limit, or that no session reached since a request to it was issued, is unreachable
(R238) (DEDUCED, log 95). -/
def execLivenessLimitExpiry (peer : Nat) (s : State) : Out :=
  match s.sess? peer with
  | some x =>
    if s.peerClock x.port < x.lastRx + peerNs (1000 * s.pb.livenessUs) then .next s
    else .next ((s.modCport x.port (fun c => { c with peerLost := c.peerLost + 1 })).dropSession peer true).pumpReqs
  | none =>
    if s.cav.remote.any (fun r => r.peer == peer && decide (r.issuedAt + 1400 * s.pb.livenessUs ≤ s.clk.hmesh)) then
      .next (s.sessionLost peer true).pumpReqs
    else .next s

/-- REBUILD_STEP: the next stale row of this module is rebuilt from its copy or its stripe, in eight chunks of 128 lines (R220). -/
def execRebuildStep (rid : Nat) (s : State) : Out :=
  match s.pb.region? rid with
  | none => .next s
  | some g =>
    let r := Region.skipRebuilt (g.nslots * (g.per / unitBytes)) (s.region rid)
    match s.memberIdx g with
    | none => .next s
    | some i =>
      if !r.rebuilding || !r.rebuildLeft.isEmpty || !s.dataUp then .next s
      else if g.nslots * (g.per / unitBytes) ≤ r.rebuildRow then
        .next (s.modRegion rid (fun r => { r with rebuilding := false, rebuilt := [], rebuildRow := 0 })).serveStalled
      else .next (((s.modRegion rid (fun _ => r)).startRow g i r.rebuildRow).serveStalled)

/-- SLOT_WAIT_EXPIRY: a waiting reservation completes CONFLICT with the current version (R212). -/
def execSlotWaitExpiry (rid module rtag : Nat) (s : State) : Out :=
  match s.pb.region? rid, (s.region rid).waitq.find? (fun w => w.module == module && w.rtag == rtag) with
  | some g, some w =>
    if s.clk.hmesh < w.since + g.slotWait * 1400000 then .next s
    else
      let s := s.modRegion rid (fun r => { r with waitq := r.waitq.filter (fun x => x != w) })
      let s := s.logEv .cvnNoSlot 0xFF module 1 rid
      .next (s.homeAnswer g [] (some (s.resvAsker w)) 7 0 ((s.region rid).current g.nslots).2)
  | _, _ => .next s

/-! ### Ports (R224, R237, R251, R373) -/

/-- Takes one of the 1,000 answers that a port gives per MGMT second (R224). -/
def State.mayAnswer (s : State) (p : Nat) : Bool × State :=
  let sec := s.clk.mgmt / mgmtHz
  let c := s.cport p
  let n := if c.answeredSec = sec then c.answered else 0
  if 1000 ≤ n then (false, s) else (true, s.modCport p (fun c => { c with answered := n + 1, answeredSec := sec }))

def State.portIp (s : State) (p : Nat) : Option Nat := (s.pb.cldPorts.find? (fun x => x.port == p)).map (·.ip)

/-- NEIGHBOR_SOLICITATION (R224). -/
def execNeighborSolicitation (port target : Nat) (s : State) : Out :=
  if !(s.cport port).up || s.portIp port ≠ some target then .next s
  else
    let r := s.mayAnswer port
    .next (if r.1 then r.2.emit (.neighborAdvert port) else s)

/-- ECHO_REQUEST (R224). -/
def execEchoRequest (port dest : Nat) (data : Bytes) (s : State) : Out :=
  if !(s.cport port).up || s.portIp port ≠ some dest then .next s
  else
    let r := s.mayAnswer port
    .next (if r.1 then r.2.emit (.echoReply port data) else s)

/-- PFC_FRAME (R224). -/
def execPfcFrame (port pcp : Nat) (xoff : Bool) (s : State) : Out :=
  match s.pb.cldPorts.find? (fun x => x.port == port) with
  | none => .next s
  | some c =>
    if !(c.pfcEn && c.pcp == pcp && (s.cport port).up) then .next s
    else
      let s := s.modCport port (fun c => { c with paused := xoff })
      .next (if xoff then s else s.sendWaiting port)

/-- PAUSE_FRAME: ignored (R224). -/
def execPauseFrame (_port : Nat) (s : State) : Out := .next s

/-- ROUTER_ADVERTISEMENT: ignored (R224). -/
def execRouterAdvertisement (_port : Nat) (s : State) : Out := .next s

/-- Moves a session to the sending port of R237: its timers carry their elapsed time in whole µs, and what is outstanding is sent again at once. Without a frame of the
session yet it sends to the peer's address with the new port's number. -/
def State.moveSession (s : State) (peer : Nat) : State :=
  match s.sess? peer, s.sendPort with
  | some x, some p =>
    let old : Int := s.peerClock x.port
    let carry := fun (t : Int) => (s.peerClock p : Int) - peerNs (1000 * ((old - t).toNat * 100000 / 78125 / 1000))
    let s := s.modSess peer (fun y => { y with
      port := p, dst := if y.rxHigh.isNone then s.peerAddr peer p else y.dst
      ackSince := y.ackSince.map carry, lastRx := carry y.lastRx, lastPing := carry y.lastPing,
      outst := y.outst.map (fun o => { o with sentAt := carry o.sentAt }) })
    ((x.outst.filter (fun o => !o.sacked)).foldl (fun s o => s.resend peer o) s).pfcCheck p
  | _, _ => s

/-- A Coldon port goes down: its sessions move and PEER_BYTES derates (R237, R251). -/
def State.coldonDown (s : State) (p : Nat) : State :=
  if !(s.cport p).up then s
  else
    let s := s.modCport p (fun c => { c with up := false, lock := false, paused := false, xoff := false, waiting := [] })
    let mine := s.cld.sessions.filter (fun x => x.port == p)
    ((mine.foldl (fun s x => s.moveSession x.peer) s).qDiscards [16 + p, 20 + p]).derateOne 5 0

/-- COLDON_PORT_DOWN (R237). -/
def execColdonPortDown (port : Nat) (s : State) : Out := .next (s.coldonDown port)

/-- COLDON_PORT_UP: the PCS has locked and the port comes into service (R251, R373). -/
def execColdonPortUp (port : Nat) (s : State) : Out :=
  let en := ((s.pb.cldPorts.find? (fun x => x.port == port)).map (·.enable)).getD false
  let c := s.cport port
  if !s.dataUp || !en || c.prsntHigh || c.up || s.isFailed (.coldonPort port) then .next s
  else
    let s := s.modCport port (fun c => { c with up := true, lock := true })
    let stuck := s.cld.sessions.filter (fun x => !(s.cport x.port).up)
    let s := (stuck.foldl (fun s x => s.moveSession x.peer) s).derateOne 5 0
    .next s.sendHellos

/-- PRSNT_N_RISE: the port goes down (R373). -/
def execPrsntNRise (port : Nat) (s : State) : Out :=
  if 4 ≤ port then .next s else .next ((s.modCport port (fun c => { c with prsntHigh := true })).coldonDown port)

/-- PRSNT_N_FALL: the port may come into service (R373). -/
def execPrsntNFall (port : Nat) (s : State) : Out :=
  if 4 ≤ port then .next s else .next (s.modCport port (fun c => { c with prsntHigh := false }))

end Sys2Proof.Machine
end

