-- ==== Sys2Proof/Machine/Operands.lean ====
section
/-! DEFINITION. Operands of staged operations: partition addresses, extents, format codes, and the checks of R160 over them (R63, R157 to R162). -/

namespace Sys2Proof.Machine

/-! ### Format codes (Table 7-1) -/

def isMx (c : Nat) : Bool := decide (6 ≤ c) && decide (c ≤ 11)

/-- Bits per element of a format code. -/
def elemBits (c : Nat) : Nat :=
  if c = 0 then 32 else if c = 1 ∨ c = 2 then 16 else if c = 8 ∨ c = 9 then 6 else if c = 10 then 4 else 8

/-- Bytes of `n` packed elements. -/
def elemBytes (c n : Nat) : Nat := ceilDiv (elemBits c * n) 8

/-- Bits of element i of a packed array (R140). -/
def elemAt (c : Nat) (bs : Bytes) (i : Nat) : Nat :=
  let w := elemBits c
  (leAt bs (w * i / 8) (if w ≤ 8 then 2 else w / 8) >>> (w * i % 8)) % 2 ^ w

/-- The value an element stands for, without its MX scale (R143). -/
def elemVal (c v : Nat) : FVal :=
  if c = 0 then fdecode fp32 v
  else if c = 1 then fdecode bf16 v
  else if c = 2 then fdecode fp16 v
  else if c = 3 ∨ c = 6 then fdecode e4m3 v
  else if c = 4 ∨ c = 7 then fdecode e5m2 v
  else if c = 5 then int8Val v
  else if c = 8 then fdecode e2m3 v
  else if c = 9 then fdecode e3m2 v
  else if c = 10 then fdecode e2m1 v
  else fscale (int8Val v) (-6)

/-- Target of a narrowing conversion to codes 0x1 to 0x5. -/
def narrowOf (c : Nat) : Narrow :=
  if c = 1 then .flt bf16 else if c = 2 then .flt fp16 else if c = 3 then .flt e4m3 else if c = 4 then .flt e5m2 else .int8

/-- Converts an FP32 value to codes 0x0 to 0x5: FP32 is stored exactly (R144, R191). -/
def toElem (c : Nat) (rnd : Rnd) (sat : Bool) (v : FVal) (st : Nat) : Nat × Nat :=
  if c = 0 then (f32Bits v, st) else narrow (narrowOf c) rnd sat v st

/-- A stored element of codes 0x0 to 0x5 is NaN or infinity. -/
def elemSpecial (c v : Nat) : Bool := if c = 5 then false else isNan (elemVal c v) || isInf (elemVal c v)

/-! ### Operands (R63, R157) -/

/-- An operand: its range-list entry, the offset of its first byte, and its extent. -/
structure Opd where
  idx : Nat
  rng : PbRange
  off : Nat
  len : Nat
deriving DecidableEq, Repr, Inhabited

/-- The operand that a partition address and a length name (R63, R157; step 4 of R160). -/
def State.opd (s : State) (p pa len : Nat) : Except (Nat × Nat) Opd :=
  match s.pb.range? p (paRange pa) with
  | none => .error (stOutOfBounds, dtBadRange)
  | some r => if r.size < paOff pa + len ∨ r.size ≤ paOff pa then .error (stOutOfBounds, dtBadOffset)
    else .ok { idx := paRange pa, rng := r, off := paOff pa, len := len }

/-- Operands overlap: extents are compared with the gaps of strided rows included (R157). -/
def Opd.meets (a b : Opd) : Bool :=
  a.idx == b.idx && decide (0 < a.len) && decide (0 < b.len) && decide (a.off < b.off + b.len) && decide (b.off < a.off + a.len)

/-- The same extent. -/
def Opd.same (a b : Opd) : Bool := a.idx == b.idx && a.off == b.off && a.len == b.len

/-! ### Checks (R160) -/

/-- What an operation asks of an operand. -/
structure Need where
  name : Nat
  pa : Nat
  len : Nat
  rd : Bool := false
  wr : Bool := false
  /-- A control input (R159). -/
  ctl : Bool := false
  /-- Format code the operand's values are read in; none: bytes, which any range gives. -/
  fmt : Option Nat := none
  /-- A sealed destination of this format is allowed: W of a re-sealing OPTIM (R172). -/
  reseal : Bool := false
deriving DecidableEq, Repr

/-- The first check that fails: each says whether it fails, with its status and detail. -/
def firstBad (l : List (Bool × Nat × Nat)) : Option (Nat × Nat) := (l.find? (·.1)).map (·.2)

def failFmt : Nat × Nat := (stBadDescriptor, 17)
def failShape : Nat × Nat := (stBadDescriptor, 18)
def failPlace : Nat × Nat := (stBadDescriptor, 19)
def failRecipe : Nat × Nat := (stBadDescriptor, 20)
def failReserved : Nat × Nat := (stBadDescriptor, dtReservedSet)

/-- Operands resolved so far, by name. -/
abbrev Opds := List (Nat × Opd)

def Opds.at? (o : Opds) (n : Nat) : Option Opd := (o.find? (fun x => x.1 == n)).map (·.2)

/-- Step 4: the operands, or the first that lies outside its entry. -/
def State.resolveNeeds (s : State) (p : Nat) (ns : List Need) : Except (Nat × Nat) Opds :=
  ns.foldl (fun acc n => match acc with
    | .error e => .error e
    | .ok l => match s.opd p n.pa n.len with
      | .error e => .error e
      | .ok x => .ok (l ++ [(n.name, x)])) (.ok [])

/-- Format code a sealed entry delivers: BF16 or FP16; none for an unsealed entry. -/
def State.sealedCode (s : State) (p idx : Nat) : Option Nat := (s.sealed? p idx).map (fun r => 1 + r.fmt)

/-- Step 5 for one operand: a sealed destination, then the cavern-region rules of R162. -/
def State.permFail (s : State) (p : Nat) (n : Need) (x : Opd) : Option (Nat × Nat) :=
  firstBad [
    (n.wr && s.isSealed p x.idx && !n.reseal && x.rng.kind != 2, stNoPermission, 22),
    (n.wr && x.rng.kind == 2, stNoPermission, 24),
    (n.rd && x.rng.kind == 2 && (s.pinSlot p x.rng).isNone, stNoPermission, 25)]

/-- Step 6 for one operand: the sealed format, and the place of a control input (R159). -/
def State.fmtFail (s : State) (p : Nat) (n : Need) (x : Opd) : Bool :=
  match s.sealedCode p x.idx, n.fmt with
  | some c, some f => c != f
  | _, _ => false

def State.ctlFail (s : State) (p : Nat) (n : Need) (x : Opd) : Bool := n.ctl && (s.isSealed p x.idx || x.rng.kind == 2)

/-- Steps 4 to 6 over the operands of an operation; `clash` are the pairs that may not overlap, with whether the same extent is allowed (DEDUCED, log 102). -/
def State.checkNeeds (s : State) (p : Nat) (ns : List Need) (extra : List (Bool × Nat × Nat)) (clash : List (Nat × Nat × Bool))
    (old : Opds) : Except (Nat × Nat) Opds :=
  match s.resolveNeeds p ns with
  | .error e => .error e
  | .ok l =>
    let each := fun (f : Need → Opd → Option (Nat × Nat)) => (ns.zip (l.map (·.2))).findSome? (fun x => f x.1 x.2)
    let all := old ++ l
    match each (s.permFail p) with
    | some e => .error e
    | none =>
      match firstBad extra with
      | some e => .error e
      | none =>
        if (ns.zip (l.map (·.2))).any (fun x => s.fmtFail p x.1 x.2) then .error failFmt
        else if clash.any (fun c => match all.at? c.1, all.at? c.2.1 with
            | some a, some b => a.meets b && !(c.2.2 && a.same b)
            | _, _ => false) then .error failPlace
        else if (ns.zip (l.map (·.2))).any (fun x => s.ctlFail p x.1 x.2) then .error failPlace
        else .ok all

end Sys2Proof.Machine
end

