-- ==== Sys2Proof/Machine/Transc.lean ====
section
/-! DEFINITION. Reciprocal, reciprocal square root, exponential and logarithm of the vector unit (R152): every result within its bound, chosen by a fixed
function of the input that the manual does not publish (DESIGN CHOICE, log 15). -/

namespace Sys2Proof.Machine

/-- The value with a unit count in place of the magnitude of an inexact exact result, kept finite from `k`. -/
def pickUnits (neg : Bool) (q : Int) (k : Nat) : FVal :=
  if dyLt fp32.maxFin (k, q) then .inf neg else .fin neg k q

/-- The neighbour above or below in magnitude of a value that FP32 does not represent, or the value itself. -/
def oneUlp (up : Bool) : FVal → FVal
  | .fin n m e =>
    if m = 0 then .fin n 0 0
    else
      let s := split fp32.mbits fp32.qmin m e
      if s.rem = 0 then pickUnits n s.q s.k else pickUnits n s.q (s.k + b2n up)
  | v => v

/-- One of the four FP32 values within 2 ulp of a value that FP32 does not represent; finite. -/
def twoUlp (sel : Int) : FVal → FVal
  | .fin n m e =>
    if m = 0 then .fin n 0 0
    else
      let s := split fp32.mbits fp32.qmin m e
      if s.rem = 0 then .fin n s.k s.q
      else
        let k := (s.k + (sel % 4).toNat) - 1
        if dyLt fp32.maxFin (k, s.q) then .fin n fp32.maxFin.1 fp32.maxFin.2 else .fin n k s.q
  | v => v

/-- FRCP. -/
def frcp (b : Nat) : Nat := fbits fp32 (oneUlp (Config.frcpUp b) (frcpExact 60 (f32 b)))

/-- 1 / sqrt of a value, exact or with a sticky bit far below FP32's last place. -/
def frsqExact : FVal → FVal
  | .nan => .nan
  | .inf n => if n then .nan else .fin false 0 0
  | .fin n m e =>
    if m = 0 then .inf n
    else if n then .nan
    else
      let w := 2 ^ (400 - e).toNat
      let r := isqrt (w / m)
      .fin false (2 * r + b2n (decide (r * r * m ≠ w))) (-201)

/-- FRSQ. -/
def frsq (b : Nat) : Nat := fbits fp32 (oneUlp (Config.frsqUp b) (frsqExact (f32 b)))

/-- FSQRT, correctly rounded. -/
def fsqrt (b : Nat) : Nat := f32Bits (fsqrtExact 60 (f32 b))

/-- Product of the roots 2^(2^-i) that the top bits of a fraction select, at 128 fraction bits. -/
def exp2Go : Nat → (frac root acc : Nat) → Nat
  | 0, _, _, acc => acc
  | n + 1, frac, root, acc =>
    let root := isqrt (root <<< 128)
    exp2Go n (2 * (frac % 2 ^ 95)) root (if frac.testBit 95 then (acc * root) >>> 128 else acc)

/-- 2^x of a finite x within the FP32 range: exact for an integer. -/
def exp2Exact (neg : Bool) (m : Nat) (e : Int) : FVal :=
  -- x × 2^96 rounded down
  let x : Int := if 0 ≤ e + 96 then scaled neg m (e + 96) 0 else (let k := m >>> (-(e + 96)).toNat; if neg then -(k : Int) - 1 else k)
  let whole := x / 2 ^ 96
  let frac := (x % 2 ^ 96).toNat
  if (0 ≤ e || m % 2 ^ (-e).toNat = 0) then .fin false 1 whole
  else .fin false (2 * exp2Go 96 frac (2 ^ 129) (2 ^ 128) + 1) (whole - 129)

/-- FEXP2: +infinity above the FP32 range and +0 below it (R188) (DEDUCED, log 55). -/
def fexp2 (b : Nat) : Nat :=
  match f32 b with
  | .nan => fp32.nanBits
  | .inf n => if n then 0 else fp32.infBits false
  | .fin n m e =>
    if !n && dyLe (128, 0) (m, e) then fp32.infBits false
    else if n && dyLt (149, 0) (m, e) then 0
    else fbits fp32 (twoUlp (Config.fexp2Sel b) (exp2Exact (n && m != 0) m e))

/-- Bits of log2 of x, in [1, 2) at 160 fraction bits, by squaring. -/
def log2Go : Nat → (x acc : Nat) → Nat
  | 0, _, acc => acc
  | n + 1, x, acc =>
    let y := (x * x) >>> 160
    if y.testBit 161 then log2Go n (y >>> 1) (2 * acc + 1) else log2Go n y (2 * acc)

/-- FLOG2. -/
def flog2Bits (b : Nat) : Nat :=
  match f32 b with
  | .nan => fp32.nanBits
  | .inf n => if n then fp32.nanBits else fp32.infBits false
  | .fin n m e =>
    if m = 0 then fp32.infBits true
    else if n then fp32.nanBits
    else
      let k := Nat.log2 m
      let whole : Int := (k : Int) + e
      if m = 2 ^ k then f32Bits (.fin (decide (whole < 0)) whole.natAbs 0)
      else
        let frac := log2Go 96 ((m <<< 160) >>> k) 0
        -- twice the value plus a sticky bit, in units of 2^-97
        let t : Int := whole * 2 ^ 97 + 2 * (frac : Int) + 1
        fbits fp32 (twoUlp (Config.flog2Sel b) (.fin (decide (t < 0)) t.natAbs (-97)))

end Sys2Proof.Machine
end

