-- ==== Sys2Proof/Machine/Recipe.lean ====
section
/-! DEFINITION. Vector recipes: the image, its validation, and its run on one element; no micro-op combines two lanes (R182 to R198). -/

namespace Sys2Proof.Machine

/-! ### The image (Tables 8-1, 8-2, 8-4) -/

def rcOps (img : Bytes) : Nat := leAt img 1 1 % 128
def rcDecl (img : Bytes) (j : Nat) : Nat := leAt img (4 + j) 1
def rcDir (img : Bytes) (j : Nat) : Nat := rcDecl img j / 64
def rcFmt (img : Bytes) (j : Nat) : Nat := rcDecl img j % 16
def rcConst (img : Bytes) (j : Nat) : Nat := leAt img (16 + 4 * j) 4
def rcWord (img : Bytes) (j : Nat) : Nat := leAt img (80 + 4 * j) 4

/-- A micro-op, with its fields. -/
structure UOp where
  opc : Nat
  d : Nat
  a : Nat
  b : Nat
  c : Nat
  pg : Nat
  pn : Bool
  prec : Nat
deriving DecidableEq, Repr

def UOp.of (w : Nat) : UOp :=
  { opc := bits w 31 26, d := bits w 25 21, a := bits w 20 16, b := bits w 15 11, c := bits w 10 6, pg := bits w 5 3, pn := bit w 2, prec := bits w 1 0 }

/-- What a field of a micro-op names. -/
inductive UField where
  | none
  | reg
  | pred
  | stream
  | const
  | fmt
deriving DecidableEq, Repr

/-- Fields of an opcode, and whether PREC may be 1 or 2 (Table 8-5). -/
structure UForm where
  d : UField := .none
  a : UField := .none
  b : UField := .none
  c : UField := .none
  half : Bool := false
  /-- It carries no guard: NOP and LOOP. -/
  bare : Bool := false
deriving DecidableEq, Repr

/-- Table 8-5; none for a reserved opcode. -/
def uForm (opc : Nat) : Option UForm :=
  if opc ≤ 0x01 then some { bare := true }
  else if opc = 0x02 then some { d := .reg, a := .stream }
  else if opc = 0x03 then some { d := .stream, a := .reg }
  else if opc = 0x04 then some { d := .reg, a := .const }
  else if opc = 0x05 then some { d := .reg, a := .reg }
  else if opc = 0x06 then some { d := .reg, a := .reg, b := .reg }
  else if opc = 0x07 then some { d := .reg, a := .reg, b := .fmt }
  else if opc = 0x0B ∨ opc = 0x0C then some { d := .reg, a := .reg, b := .reg, c := .reg, half := true }
  else if opc ≤ 0x0E then some { d := .reg, a := .reg, b := .reg, half := true }
  else if opc ≤ 0x11 then some { d := .reg, a := .reg }
  else if opc = 0x12 then some { d := .reg, a := .reg, b := .reg }
  else if 0x18 ≤ opc ∧ opc ≤ 0x1C then some { d := .reg, a := .reg }
  else if 0x20 ≤ opc ∧ opc ≤ 0x24 then some { d := .pred, a := .reg, b := .reg }
  else if 0x28 ≤ opc ∧ opc ≤ 0x2A then some { d := .pred, a := .pred, b := .pred }
  else if opc = 0x2B then some { d := .pred, a := .pred }
  else none

/-- A field holds a value that its use allows. -/
def UField.ok (f : UField) (v : Nat) : Bool :=
  match f with
  | .none => v == 0
  | .reg => true
  | .pred | .stream => decide (v < 8)
  | .const => decide (v < 16)
  | .fmt => decide (1 ≤ v) && decide (v ≤ 5)

/-! ### Validation (R193) -/

/-- Rule 4 of R193 for one micro-op. -/
def UOp.wordOk (u : UOp) : Bool :=
  match uForm u.opc with
  | none => false
  | some f =>
    f.d.ok u.d && f.a.ok u.a && f.b.ok u.b && f.c.ok u.c && decide (u.prec < 3) && (u.prec == 0 || f.half) &&
      (if f.bare then u.pg == 0 && !u.pn else !(u.pg == 0 && u.pn))

/-- Registers a micro-op reads; predicates as 32 and above. A guarded write also reads its destination. -/
def UOp.reads (u : UOp) : List Nat :=
  match uForm u.opc with
  | none => []
  | some f =>
    let fld := fun (k : UField) (v : Nat) => match k with
      | .reg => [v]
      | .pred => [32 + v]
      | _ => []
    fld f.a u.a ++ fld f.b u.b ++ fld f.c u.c ++ (if f.bare then [] else [32 + u.pg]) ++
      (if u.pg ≠ 0 ∧ u.opc ≠ 0x06 then fld f.d u.d else [])

/-- The register or predicate a micro-op writes. -/
def UOp.writes (u : UOp) : List Nat :=
  match uForm u.opc with
  | none => []
  | some f => match f.d with
    | .reg => [u.d]
    | .pred => [32 + u.d]
    | _ => []

/-- Prologue and body of a program. -/
def rcSplit (us : List UOp) : List UOp × List UOp :=
  match us.findIdx? (fun u => u.opc == 1) with
  | none => ([], us)
  | some k => (us.take k, us.drop (k + 1))

def rcProg (img : Bytes) : List UOp := (List.range (rcOps img)).map (fun j => UOp.of (rcWord img j))

/-- A recipe reads a stream: one that it declares so and that an LD names (R186) (DEDUCED, log 54). -/
def rcReads (img : Bytes) (j : Nat) : Bool := rcDir img j % 2 == 1 && (rcProg img).any (fun u => u.opc == 2 && u.a == j)

/-- The image passes R193; `bind` says whether the operation allows stream j with a direction and a format. -/
def recipeOk (img : Bytes) (bind : Nat → Nat → Nat → Bool) : Bool :=
  let n := rcOps img
  let us := rcProg img
  let pb := rcSplit us
  let decls := List.range 8
  -- 1, 2
  leAt img 0 1 == 1 && leAt img 380 4 == crc32c (img.take 380) && leAt img 1 1 < 128 && leAt img 2 2 == 0 && leAt img 12 4 == 0 &&
    zeroAt img 336 44 && decide (1 ≤ n) && decide (n ≤ 64) && zeroAt img (80 + 4 * n) (256 - 4 * n) &&
  -- 3
  decls.all (fun j => rcDecl img j / 16 % 4 == 0 && (decide (rcFmt img j ≤ 5) || rcFmt img j == 15) && (rcDir img j != 0 || rcFmt img j == 0) &&
    bind j (rcDir img j) (rcFmt img j)) &&
  -- 4, 5
  us.all UOp.wordOk && decide ((us.filter (fun u => u.opc == 1)).length ≤ 1) && pb.1.all (fun u => u.opc != 2 && u.opc != 3) &&
  -- 6, 7
  us.all (fun u => (u.opc != 2 || rcDir img u.a % 2 == 1) && (u.opc != 3 || decide (2 ≤ rcDir img u.d))) &&
  decls.all (fun j => decide (rcDir img j < 2) || (pb.2.filter (fun u => u.opc == 3 && u.d == j)).length == 1) &&
  decls.any (fun j => decide (2 ≤ rcDir img j)) &&
  -- 8
  us.all (fun u => !u.writes.contains 32) &&
  -- 9
  (us.foldl (fun (acc : Bool × List Nat) u => (acc.1 && u.reads.all (fun r => acc.2.contains r), acc.2 ++ u.writes)) (true, [32])).1 &&
  -- 10
  pb.2.all (fun u => u.writes.all (fun r => !(pb.1.any (fun v => v.writes.contains r))))

/-! ### Running on one element (R184 to R192) -/

/-- A lane: registers and predicates with their poison bits, the random state, and what it has stored: stream, element bits (none: the guard left the
element as it was), poison. -/
structure Lane where
  regs : Tab (Nat × Bool) := []
  preds : Tab (Bool × Bool) := []
  rnd : Nat := 0
  out : List (Nat × Option Nat × Bool) := []
deriving DecidableEq, Repr, Inhabited

/-- What a run of a recipe is given: constants, element inputs of the streams as FP32 patterns with poison, formats, rounding. -/
structure RcEnv where
  const : List Nat
  input : List (Nat × Bool)
  fmt : List Nat
  rnd : Rnd
  sat : Bool

def Lane.reg (l : Lane) (r : Nat) : Nat × Bool := tabGet (0, false) l.regs r
def Lane.pred (l : Lane) (p : Nat) : Bool × Bool := if p = 0 then (true, false) else tabGet (false, false) l.preds p

/-- Writes a register under a guard (R189, R192). -/
def Lane.setReg (l : Lane) (r : Nat) (g : Bool × Bool) (v : Nat × Bool) : Lane :=
  let old := l.reg r
  { l with regs := tabSet l.regs r (if g.1 then (v.1, v.2 || g.2) else (old.1, old.2 || g.2)) }

def Lane.setPred (l : Lane) (p : Nat) (g : Bool × Bool) (v : Bool × Bool) : Lane :=
  let old := l.pred p
  { l with preds := tabSet l.preds p (if g.1 then (v.1, v.2 || g.2) else (old.1, old.2 || g.2)) }

/-- Result of an FP32 arithmetic micro-op under PREC (R190). -/
def precBits (prec : Nat) (v : FVal) : Nat := if prec = 1 then viaFmt bf16 v else if prec = 2 then viaFmt fp16 v else f32Bits v

/-- −A and |A| keep the value; a NaN gives the canonical NaN. -/
def exactBits (v : FVal) : Nat := fbits fp32 v

/-- The FP32 pattern of a register micro-op that reads registers only (Table 8-5). -/
def uResult (u : UOp) (a b c : Nat) : Nat :=
  let x := f32 a
  let y := f32 b
  let z := f32 c
  let o := u.opc
  if o = 0x05 then a
  else if o = 0x08 then precBits u.prec (fadd x y)
  else if o = 0x09 then precBits u.prec (fsub x y)
  else if o = 0x0A then precBits u.prec (fmul x y)
  else if o = 0x0B then precBits u.prec (fadd (fmul x y) z)
  else if o = 0x0C then precBits u.prec (fsub z (fmul x y))
  else if o = 0x0D then precBits u.prec (fmin x y)
  else if o = 0x0E then precBits u.prec (fmax x y)
  else if o = 0x0F then exactBits (fabs x)
  else if o = 0x10 then exactBits (fneg x)
  else if o = 0x11 then (if isNan x then fp32.nanBits else if isZero x then a else exactBits (.fin (isNeg x) 1 0))
  else if o = 0x12 then (if isNan x then fp32.nanBits else a % 2 ^ 31 + b / 2 ^ 31 * 2 ^ 31)
  else if o = 0x18 then frcp a
  else if o = 0x19 then frsq a
  else if o = 0x1A then fsqrt a
  else if o = 0x1B then fexp2 a
  else flog2Bits a

/-- Result of a comparison (Table 8-5). -/
def uCompare (opc a b : Nat) : Bool :=
  let x := f32 a
  let y := f32 b
  if opc = 0x20 then feqNum x y
  else if opc = 0x21 then !feqNum x y
  else if opc = 0x22 then fltNum x y
  else if opc = 0x23 then fltNum x y || feqNum x y
  else isNan x || isNan y

/-- One micro-op on a lane. -/
def uStep (env : RcEnv) (l : Lane) (u : UOp) : Lane :=
  let p := l.pred u.pg
  let g := (p.1 != u.pn, p.2)
  match uForm u.opc with
  | none => l
  | some f =>
    if f.bare then l
    else if u.opc = 0x02 then l.setReg u.d g (env.input[u.a]?.getD (0, false))
    else if u.opc = 0x03 then
      let v := l.reg u.a
      if g.1 then
        let e := toElem (env.fmt[u.d]?.getD 0) env.rnd env.sat (f32 v.1) l.rnd
        let bitsOut := if env.fmt[u.d]?.getD 0 = 0 then v.1 else e.1
        { l with rnd := e.2, out := l.out ++ [(u.d, some bitsOut, v.2 || g.2)] }
      else if g.2 then { l with out := l.out ++ [(u.d, none, true)] } else l
    else if u.opc = 0x04 then l.setReg u.d g (env.const[u.a]?.getD 0, false)
    else if u.opc = 0x06 then
      let v := l.reg (if g.1 then u.a else u.b)
      l.setReg u.d (true, g.2) v
    else if u.opc = 0x07 then
      let v := l.reg u.a
      if g.1 then
        let e := toElem u.b env.rnd env.sat (f32 v.1) l.rnd
        ({ l with rnd := e.2 }).setReg u.d g (exactBits (elemVal u.b e.1), v.2)
      else l.setReg u.d g v
    else match f.d, f.a with
      | .pred, .reg =>
        let a := l.reg u.a
        let b := l.reg u.b
        l.setPred u.d g (uCompare u.opc a.1 b.1, a.2 || b.2)
      | .pred, _ =>
        let a := l.pred u.a
        let b := if u.opc = 0x2B then (false, false) else l.pred u.b
        let v := if u.opc = 0x28 then a.1 && b.1 else if u.opc = 0x29 then a.1 || b.1 else if u.opc = 0x2A then a.1 != b.1 else !a.1
        l.setPred u.d g (v, a.2 || b.2)
      | _, _ =>
        let a := l.reg u.a
        let b := if f.b = .reg then l.reg u.b else (0, false)
        let c := if f.c = .reg then l.reg u.c else (0, false)
        l.setReg u.d g (uResult u a.1 b.1 c.1, a.2 || b.2 || c.2)

/-- A recipe on element i: its prologue, whose conversions round SR as RNE, then its body (R185, R191). What it stores. -/
def recipeRun (img : Bytes) (env : RcEnv) (seed i : Nat) : List (Nat × Option Nat × Bool) :=
  let pb := rcSplit (rcProg img)
  let pro := pb.1.foldl (uStep { env with rnd := if env.rnd = .sr then .rne else env.rnd }) {}
  (pb.2.foldl (uStep env) { pro with rnd := srInit seed i }).out

/-- The second of two micro-ops issues in the slot of the first (R190). -/
def UOp.paired (u v : UOp) : Bool := u.opc == v.opc && u.prec != 0 && u.prec == v.prec && u.writes.all (fun r => !v.reads.contains r)

/-- Vector issue slots of a body or a prologue (R190, R194). -/
def slotsOf : List UOp → Nat
  | [] => 0
  | [u] => if 1 ≤ u.opc ∧ u.opc ≤ 3 then 0 else 1
  | u :: v :: t => if u.paired v then 1 + slotsOf t else (if 1 ≤ u.opc ∧ u.opc ≤ 3 then 0 else 1) + slotsOf (v :: t)

end Sys2Proof.Machine
end

