-- ==== Sys2Proof/Machine/PbImage.lean ====
section
/-! DEFINITION. The prompt-book image: its format, its sections, and the validation rules (R328 to R333, Tables 16-1 to 16-14). -/

namespace Sys2Proof.Machine

/-! ### Format (R328, R329) -/

/-- A directory entry (Table 16-2). -/
structure DirEnt where
  typ : Nat
  entrySize : Nat
  offset : Nat
  count : Nat
  crc : Nat
deriving DecidableEq, Repr

def dirEnt (img : Bytes) (i : Nat) : DirEnt :=
  let o := 64 + 16 * i
  { typ := leAt img o 2, entrySize := leAt img (o + 2) 2, offset := leAt img (o + 4) 4, count := leAt img (o + 8) 4, crc := leAt img (o + 12) 4 }

/-- ENTRY_SIZE and the COUNT range of each section (Table 16-4). -/
def sectionShape (typ : Nat) : Nat × Nat × Nat :=
  ([(64, 1, 64), (48, 1, 16384), (32, 1, 4096), (8, 0, 4032), (56, 1, 322), (64, 8, 8), (0, 1, 5121), (16, 1, 65), (16, 1, 1), (32, 1, 1),
    (16, 1, 1), (16, 1, 1), (0, 1, 16388)][typ - 1]?).getD (0, 0, 0)

/-- The entries of a section of variable entries, as their LENGTH fields cut them (R329). -/
def varEntries : Nat → Bytes → Option (List Bytes)
  | 0, _ => some []
  | n + 1, bs =>
    let len := leAt bs 2 2
    if bs.length < 4 ∨ len < 4 ∨ bs.length < len then none
    else (varEntries n (bs.drop len)).map (fun t => bs.take len :: t)

/-- The entries of a section whose bytes start `bs`. -/
def sectionEntries (d : DirEnt) (bs : Bytes) : Option (List Bytes) :=
  if d.entrySize = 0 then varEntries d.count bs
  else if bs.length < d.count * d.entrySize then none
  else some ((List.range d.count).map (fun i => slice bs (i * d.entrySize) d.entrySize))

/-- The sections of an image, each with its entries, and nothing but zeros between them (R328). -/
def sectionsFrom (img : Bytes) (stop : Nat) : List DirEnt → Nat → Option (List (List Bytes))
  | [], at_ => if zeroAt img at_ (stop - at_) then some [] else none
  | d :: ds, at_ =>
    if d.offset % 64 ≠ 0 ∨ d.offset < at_ ∨ stop < d.offset ∨ !zeroAt img at_ (d.offset - at_) then none
    else match sectionEntries d ((img.drop d.offset).take (stop - d.offset)) with
      | none => none
      | some es =>
        let bs := es.flatten
        if crc32c bs ≠ d.crc then none else (sectionsFrom img stop ds (d.offset + bs.length)).map (es :: ·)

def imageLen (img : Bytes) : Nat := leAt img 8 4

/-- Step 2 of R332: the sections of an image whose header, directory and CRCs are correct. -/
def pbSections (img : Bytes) : Option (List (List Bytes)) :=
  let len := imageLen img
  let dirs := (List.range 13).map (dirEnt img)
  if img.length < 64 ∨ leAt img 0 4 ≠ 0x42504D44 ∨ leAt img 4 2 ≠ 1 ∨ leAt img 6 2 ≠ 13 ∨ len % 64 ≠ 0 ∨ 16777216 < len ∨ img.length < len ∨ len < 576
    ∨ dirs.map (·.typ) ≠ (List.range 13).map (· + 1) ∨ !dirs.all (fun d => d.entrySize == (sectionShape d.typ).1) then none
  else sectionsFrom img (len - 272) dirs 272

/-- OWNER_KEY and SIG of an image (Table 16-3), and the bytes that SIG covers. -/
def pbOwnerKey (img : Bytes) : Bytes := slice img (imageLen img - 272) 133
def pbSig (img : Bytes) : Bytes := slice img (imageLen img - 136) 132
def pbSigned (img : Bytes) : Bytes := img.take (imageLen img - 136)

/-! ### Sections (Tables 16-5 to 16-13) -/

def parsePart (e : Bytes) : PbPart :=
  let f := leAt e 1 1
  { num := leAt e 0 1 % 64, keyOnReset := bit f 2, orphanStale := bit f 1, rt := bit f 0, slotsMin := leAt e 2 2 % 1024,
    ringFirst := leAt e 4 2 % 4096, ringCount := leAt e 6 2 % 8192, ldMask := leAt e 8 16 }

def parseRange (e : Bytes) : PbRange :=
  let f := leAt e 2 1
  { part := leAt e 0 1 % 64, kind := leAt e 1 1 % 4, hint := bits f 4 2, aptBf16 := bit f 1, aperture := bit f 0, regionId := leAt e 4 4,
    maBase := leAt e 8 8 % 2 ^ 46, size := leAt e 16 8, ldMask := leAt e 24 16 }

def parseRing (e : Bytes) : PbRing :=
  let l := leAt e 3 1
  { ring := leAt e 0 2 % 4096, part := leAt e 2 1 % 64, cqLog2 := bits l 7 4, sqLog2 := bits l 3 0, maxInflight := leAt e 4 2 % 512,
    vector := leAt e 6 1 % 64, intLd := leAt e 7 1 % 128, sqBase := leAt e 8 8, cqBase := leAt e 16 8 }

def parseVector (e : Bytes) : PbVector :=
  { part := leAt e 0 1 % 64, vector := leAt e 1 1 % 64, coalCount := leAt e 2 2, coalTime := leAt e 4 2 }

def parseBudget (e : Bytes) : PbBudget := { activity := leAt e 0 2, value := (List.range 6).map (fun c => leAt e (8 + 8 * c) 8) }

def parsePort (e : Bytes) : PbPort :=
  let f := leAt e 1 1
  { port := leAt e 0 1 % 8, maxX4 := bit f 4, maxRate := bits f 3 2, sris := bit f 1, enable := bit f 0, ldCount := leAt e 2 1 % 32,
    biTimeout := leAt e 4 2, ldCap := (List.range 16).map (fun l => leAt e (8 + 2 * l) 2) }

def parseTier (e : Bytes) : PbTier := { part := leAt e 0 1, quota := leAt e 2 2, nearShare := leAt e 4 4, pinLimit := leAt e 8 4 }

/-- A region entry; MODE 0xFF stands for DEFAULT_MODE, also in the DIGEST (R331). -/
def parseRegion (defMode : Nat) (e : Bytes) : PbRegion :=
  let mode := if leAt e 9 1 = 0xFF then defMode else leAt e 9 1
  let w := leAt e 36 2
  { rid := leAt e 4 4, kind := leAt e 8 1, mode := mode, nslots := leAt e 10 1, holderHint := leAt e 11 1, size := leAt e 12 8,
    stripeBase := leAt e 20 8, home := leAt e 28 2, altHome := leAt e 30 2, owner := leAt e 32 1, slotWait := leAt e 34 2,
    members := (List.range w).map (fun i => leAt e (40 + 2 * i) 2),
    digest := leNat ((sha512 (putAt e 9 (leBytes 1 mode))).take 8) }

def parseGroup (e : Bytes) : PbGroup :=
  { group := leAt e 4 2, joinLimit := leAt e 8 4, members := (List.range (leAt e 6 2)).map (fun i => (leAt e (16 + 4 * i) 2, leAt e (18 + 4 * i) 1)) }

/-- Big-endian value, as network order writes an address. -/
def beAt (e : Bytes) (off n : Nat) : Nat := leNat ((slice e off n).reverse)

def parseCldPort (e : Bytes) : PbCldPort :=
  { port := leAt e 1 1, ip := beAt e 4 16, gwMac := beAt e 20 6, vlan := leAt e 26 2 % 4096, pcp := leAt e 28 1 % 8, dscp := leAt e 29 1 % 64,
    enable := bit (leAt e 30 1) 1, pfcEn := bit (leAt e 30 1) 0 }

def parsePeer (e : Bytes) : PbPeer :=
  { moduleId := leAt e 4 2, ips := (List.range 4).map (fun i => beAt e (8 + 16 * i) 16), keyHash := slice e 72 32 }

/-- The entries of section `typ`. -/
def sec (ss : List (List Bytes)) (typ : Nat) : List Bytes := ss[typ - 1]?.getD []

/-- The entries of one KIND of a section of variable entries. -/
def ofKind (es : List Bytes) (k : Nat) : List Bytes := es.filter (fun e => leAt e 0 1 == k)

/-- The prompt book that the sections of an image say. -/
def parseBook (img : Bytes) (ss : List (List Bytes)) : PromptBook :=
  let cav := sec ss 7
  let m := (ofKind cav 0).head?.getD []
  let cld := sec ss 13
  let g := (ofKind cld 0).head?.getD []
  let pw := (sec ss 9).head?.getD []
  let ra := (sec ss 10).head?.getD []
  let se := (sec ss 11).head?.getD []
  let qm := (sec ss 12).head?.getD []
  { svn := leAt img 12 4, targetSerial := slice img 16 16, variant := leAt img 32 1, buildId := leAt img 40 8, ownerKey := pbOwnerKey img,
    partitions := (sec ss 1).map parsePart, ranges := (sec ss 2).map parseRange, rings := (sec ss 3).map parseRing,
    vectors := (sec ss 4).map parseVector, budgets := (sec ss 5).map parseBudget, ports := (sec ss 6).map parsePort,
    tiers := (sec ss 8).map parseTier,
    moduleId := leAt m 4 2, sharePct := leAt m 6 1, defaultMode := leAt m 7 1,
    regions := (ofKind cav 1).map (parseRegion (leAt m 7 1)), groups := (ofKind cav 2).map parseGroup,
    peakW := leAt pw 0 2, sustainedW := leAt pw 2 2, dieAW := leAt pw 4 2, dieBW := leAt pw 6 2, hubW := leAt pw 8 2, deferLimit := leAt pw 10 2,
    rasCfg := leAt ra 0 8, dctlCfg := leAt ra 8 8, nctlCfg := leAt ra 16 8,
    ideRequired := leAt se 0 1, injectOk := bit (leAt se 1 1) 0,
    mark1 := leAt qm 0 1, mark2 := leAt qm 1 1, mark3 := leAt qm 2 1, wqMark := leAt qm 3 1, stallLimit := leAt qm 4 4,
    udpPort := leAt g 4 2, rxWindow := leAt g 6 2, ackDelayNs := leAt g 8 4, rtoInitNs := leAt g 12 4, rtoMaxNs := leAt g 16 4,
    idlePingUs := leAt g 20 4, livenessUs := leAt g 24 4, helloRetryUs := leAt g 28 4,
    cldPorts := (ofKind cld 1).map parseCldPort, peers := (ofKind cld 2).map parsePeer }

/-! ### Validation (R333, Table 16-14) -/

/-- A failure of validation: the rule's code, the section TYPE and the entry index. -/
structure PbFail where
  code : Nat
  typ : Nat
  idx : Nat
deriving DecidableEq, Repr

/-- The first of several checks that fails. -/
def firstFail : List (Option PbFail) → Option PbFail
  | [] => none
  | some f :: _ => some f
  | none :: t => firstFail t

/-- The failure that stands first in the image: image order within a rule (R333), sections in ascending TYPE (R328). -/
def earliest (l : List (Option PbFail)) : Option PbFail :=
  l.foldl (fun best f =>
    match best, f with
    | none, f => f
    | some b, none => some b
    | some b, some g => if g.typ < b.typ ∨ (g.typ = b.typ ∧ g.idx < b.idx) then some g else some b) none

/-- The first entry that fails a check of its own, or of itself against the entries before it. -/
def checkEach {β : Type} (code typ : Nat) (es : List β) (ok : List β → β → Bool) : Option PbFail :=
  ((List.range es.length).zip es).findSome? (fun x => if ok (es.take x.1) x.2 then none else some { code := code, typ := typ, idx := x.1 })

/-- A failure that concerns a whole section. -/
def checkIf (code typ idx : Nat) (ok : Bool) : Option PbFail := if ok then none else some { code := code, typ := typ, idx := idx }

/-- Bits that fields of the given widths and positions cover. -/
def maskOf (fs : List (Nat × Nat)) : Nat := (fs.map (fun f => (2 ^ f.1 - 1) * 2 ^ f.2)).sum

/-- Every bit of an entry outside its fields is 0. -/
def rsvOk (m : Nat) (e : Bytes) : Bool := leNat e ||| m == m

/-- Rule 0x01: reserved fields, and COUNT, KIND and LENGTH. -/
def rule01 (img : Bytes) (ss : List (List Bytes)) : Option PbFail :=
  let typed := fun (typ : Nat) (m : Nat) => checkEach 1 typ (sec ss typ) (fun _ e => rsvOk m e)
  let cav := sec ss 7
  let cld := sec ss 13
  earliest ([checkIf 1 0 0 (decide (leAt img 12 4 ≤ 64) && decide (leAt img 32 1 ≤ 2) && zeroAt img 33 7 && zeroAt img 48 16 && zeroAt img (imageLen img - 139) 3 && zeroAt img (imageLen img - 4) 4)] ++
    (List.range 13).map (fun i =>
      let n := (sec ss (i + 1)).length
      let sh := sectionShape (i + 1)
      checkIf 1 (i + 1) 0 (decide (sh.2.1 ≤ n) && decide (n ≤ sh.2.2))) ++
    [typed 1 (maskOf [(6, 0), (3, 8), (10, 16), (12, 32), (13, 48), (128, 64)]),
     typed 2 (maskOf [(6, 0), (2, 8), (5, 16), (32, 32), (46, 64), (64, 128), (128, 192)]),
     checkEach 1 2 ((sec ss 2).map parseRange) (fun _ r => decide (r.kind ≤ 2) && decide (r.hint ≤ 3)),
     typed 3 (maskOf [(12, 0), (6, 16), (8, 24), (9, 32), (6, 48), (7, 56), (64, 64), (64, 128)]),
     typed 4 (maskOf [(6, 0), (6, 8), (16, 16), (16, 32)]),
     typed 5 (maskOf [(16, 0), (384, 64)]),
     typed 6 (maskOf [(3, 0), (5, 8), (5, 16), (16, 32), (256, 64)]),
     checkEach 1 7 cav (fun before e =>
       let k := leAt e 0 1
       let n := e.length
       leAt e 1 1 == 0 &&
       (if k = 0 then n == 16 && zeroAt e 8 8 && !(before.any (fun b => leAt b 0 1 == 0))
        else if k = 1 then n == alignUp (40 + 2 * leAt e 36 2) 8 && zeroAt e 33 1 && zeroAt e 38 2 && zeroAt e (40 + 2 * leAt e 36 2) 8
        else if k = 2 then n == alignUp (16 + 4 * leAt e 6 2) 8 && zeroAt e 12 4 && (List.range (leAt e 6 2)).all (fun i => leAt e (19 + 4 * i) 1 == 0) &&
          zeroAt e (16 + 4 * leAt e 6 2) 8
        else false)),
     checkIf 1 7 0 ((ofKind cav 0).length == 1),
     typed 8 (maskOf [(8, 0), (16, 16), (32, 32), (32, 64)]),
     typed 9 (maskOf [(96, 0)]),
     typed 10 (maskOf [(41, 0), (64, 64), (64, 128)]),
     checkEach 1 10 (sec ss 10) (fun _ e =>
       rsvOk (maskOf [(8, 0), (8, 8), (10, 16), (8, 32), (1, 40)]) (slice e 0 8) &&
       rsvOk (maskOf [(8, 0), (12, 12), (8, 24), (8, 32)]) (slice e 8 8) && rsvOk (maskOf [(8, 0), (12, 12), (8, 32)]) (slice e 16 8) && zeroAt e 24 8),
     typed 11 (maskOf [(8, 0), (1, 8)]),
     typed 12 (maskOf [(64, 0)]),
     checkEach 1 13 cld (fun before e =>
       let k := leAt e 0 1
       let n := e.length
       if k = 0 then n == 32 && leAt e 1 1 == 0 && !(before.any (fun b => leAt b 0 1 == 0))
       else if k = 1 then n == 40 && decide (leAt e 1 1 < 4) && decide ((before.filter (fun b => leAt b 0 1 == 1)).length < 4) &&
         decide (leAt e 26 2 < 4096) && decide (leAt e 28 1 < 8) && decide (leAt e 29 1 < 64) && decide (leAt e 30 1 < 4) && zeroAt e 31 9
       else if k = 2 then n == 104 && leAt e 1 1 == 0 && zeroAt e 6 2
       else false),
     checkIf 1 13 0 ((ofKind cld 0).length == 1)])

/-- A partition has an entry. -/
def PromptBook.hasPart (b : PromptBook) (p : Nat) : Bool := b.partitions.any (fun x => x.num == p)

/-- The partition that a BUDGETS activity names, if it names one. -/
def actPart (a : Nat) : Option Nat :=
  if a < 0x40 then some a else if a < 0x80 then some (a - 0x40) else none

def rule02 (b : PromptBook) : Option PbFail :=
  earliest [
    checkEach 2 1 b.partitions (fun before p => !before.any (fun x => x.num == p.num)),
    checkEach 2 1 b.partitions (fun _ p => p.ldMask != 0 && b.ranges.any (fun r => r.part == p.num) && b.rings.any (fun r => r.part == p.num)),
    checkEach 2 2 b.ranges (fun _ r => b.hasPart r.part),
    checkEach 2 3 b.rings (fun _ r => b.hasPart r.part),
    checkEach 2 4 b.vectors (fun _ v => b.hasPart v.part),
    checkEach 2 5 b.budgets (fun _ x => match actPart x.activity with
      | some p => b.hasPart p
      | none => true),
    checkEach 2 8 b.tiers (fun _ t => t.part == 0xFF || b.hasPart t.part)]

/-- An LD is enabled on an enabled port. -/
def PromptBook.ldOn (b : PromptBook) (i : Nat) : Bool :=
  match b.port? (i / 16) with
  | some x => x.enable && decide (i % 16 < x.ldCount)
  | none => false

def rule03 (b : PromptBook) : Option PbFail :=
  earliest [
    checkEach 3 1 b.partitions (fun before p => before.all (fun x => x.ldMask &&& p.ldMask == 0)),
    checkEach 3 1 b.partitions (fun _ p => (List.range 128).all (fun i => !bit p.ldMask i || b.ldOn i)),
    checkEach 3 2 b.ranges (fun _ r => match b.part? r.part with
      | some p => r.ldMask ||| p.ldMask == p.ldMask
      | none => false)]

/-- Where the layout of an LD ends (R39). -/
def layoutEnd (ss : List Span) : Nat := (ss.map (fun x => x.base + x.size)).foldl max 0

def rule04 (b : PromptBook) : Option PbFail :=
  earliest [
    checkEach 4 6 b.ports (fun _ x => (List.range 16).all (fun l =>
      decide (layoutEnd (b.layout (16 * x.port + l)) ≤ (x.ldCap[l]?.getD 0) * 0x10000000))),
    checkEach 4 2 b.ranges (fun before r => decide ((before.filter (fun x => x.part == r.part)).length < 256))]

/-- Backed by the module's deep tier. -/
def PbRange.deep (r : PbRange) : Bool := r.regionId == 0 && r.kind != 2

/-- First address of the contributed share under a prompt book (R22, R200). -/
def PromptBook.shareAt (b : PromptBook) (user : Nat) : Nat := user - user * b.sharePct / 100 / 0x40000000 * 0x40000000

def rule05 (b : PromptBook) (user : Nat) : Option PbFail :=
  checkEach 5 2 b.ranges (fun before r =>
    r.size % pageBytes == 0 &&
    (!r.deep || (r.maBase % pageBytes == 0 && decide (r.maBase + r.size ≤ b.shareAt user) &&
      before.all (fun x => !x.deep || decide (x.maBase + x.size ≤ r.maBase) || decide (r.maBase + r.size ≤ x.maBase)))))

def rule06 (b : PromptBook) : Option PbFail :=
  checkEach 6 2 b.ranges (fun before r =>
    if r.regionId = 0 then r.kind != 2
    else
      r.kind != 1 && r.maBase == 0 &&
      (match b.region? r.regionId with
        | none => false
        | some g =>
          g.size == r.size &&
          (if r.kind = 0 then g.kind == 0 && g.home == b.moduleId && g.owner == r.part && !before.any (fun x => x.regionId == r.regionId)
           else g.kind == 1 && r.ldMask == 0 && !r.aperture)))

/-- The partition layout of two prompt books is the same (R339). A validated section has no bits outside its fields, so its fields are its bytes. -/
def sameLayout (a b : PromptBook) : Bool :=
  a.partitions == b.partitions && a.ranges.map (fun (r : PbRange) => { r with hint := 0 }) == b.ranges.map (fun (r : PbRange) => { r with hint := 0 }) &&
    a.moduleId == b.moduleId && a.sharePct == b.sharePct

/-- A ring's base is aligned to its size, and the ring lies within an HDM-H range of its partition that is not sealed (R65): `held` are the sealed ranges,
as (partition, index), that the reload keeps. -/
def PromptBook.ringBaseOk (b : PromptBook) (held : List (Nat × Nat)) (part base size : Nat) : Bool :=
  match b.range? part (bits base 63 56) with
  | none => false
  | some r => !held.contains (part, bits base 63 56) && base % size == 0 && r.kind == 0 && decide (base % 2 ^ 56 + size ≤ r.size)

def rule07 (held : List (Nat × Nat)) (b : PromptBook) : Option PbFail :=
  earliest [
    checkEach 7 1 b.partitions (fun before p =>
      decide (1 ≤ p.ringCount) && decide (p.ringFirst + p.ringCount ≤ 4096) &&
      before.all (fun x => decide (x.ringFirst + x.ringCount ≤ p.ringFirst) || decide (p.ringFirst + p.ringCount ≤ x.ringFirst)) &&
      decide ((before.map (·.slotsMin)).sum + p.slotsMin ≤ 640) &&
      (b.rings.filter (fun r => r.part == p.num)).length == p.ringCount),
    checkEach 7 3 b.rings (fun before r =>
      !before.any (fun x => x.ring == r.ring) &&
      (match b.part? r.part with
        | some p => decide (p.ringFirst ≤ r.ring) && decide (r.ring < p.ringFirst + p.ringCount)
        | none => false) &&
      decide (6 ≤ r.sqLog2) && decide (r.sqLog2 ≤ 15) && decide (6 ≤ r.cqLog2) && decide (r.cqLog2 ≤ 15) &&
      decide (1 ≤ r.maxInflight) && decide (r.maxInflight ≤ 256) && decide (r.maxInflight ≤ 2 ^ r.cqLog2) && r.vector != 0 &&
      b.ringBaseOk held r.part r.sqBase (64 * 2 ^ r.sqLog2) && b.ringBaseOk held r.part r.cqBase (16 * 2 ^ r.cqLog2))]

def rule08 (b : PromptBook) : Option PbFail :=
  earliest [
    checkEach 8 4 b.vectors (fun before v =>
      !before.any (fun x => x.part == v.part && x.vector == v.vector) && v.vector != 0 && decide (1 ≤ v.coalCount) && decide (v.coalCount ≤ 256) &&
      decide (v.coalTime ≤ 1024)),
    checkEach 8 3 b.rings (fun _ r => b.partOfLd r.intLd == some r.part)]

/-- A BUDGETS entry lies within Table 16-10, R244 and R253 (DEDUCED, log 101). -/
def PromptBook.budgetOk (b : PromptBook) (x : PbBudget) : Bool :=
  let v := fun c => x.value[c]?.getD 0
  if x.activity = 0xFFFF then
    decide (1 ≤ v 0) && decide (v 0 ≤ 4096) && decide (4096 ≤ v 1) && decide (v 1 ≤ 1032192) && v 2 == 0 && v 3 == 0 && v 4 == 0 && v 5 == 0
  else if x.activity < 0x40 then v 0 % 64 == 0 && v 1 % 64 == 0 && v 5 % 64 == 0 && v 4 == 0
  else if x.activity ≤ 0x80 then v 0 % 64 == 0 && v 1 % 64 == 0 && v 5 % 64 == 0 && v 2 == 0 && v 3 == 0 && v 4 == 0
  else if 0x100 ≤ x.activity ∧ x.activity < 0x180 then
    v 4 % 64 == 0 && v 0 == 0 && v 1 == 0 && v 2 == 0 && v 3 == 0 && v 5 == 0 && (b.partOfLd (x.activity - 0x100)).isSome
  else false

/-- The sums of R250; a failure carries the class and port in place of an index. -/
def sumsFail (b : PromptBook) : Option PbFail :=
  ((List.range 6).flatMap (fun c => (List.range (if c = 4 then 8 else 1)).map (fun p => (c, p)))).findSome? (fun x =>
    let r := b.rtTotal x.1 x.2
    let d := dValid x.1
    if 4 * r ≤ d ∧ 100 * (r + b.guarTotal x.1 x.2) ≤ 85 * d then none
    else some { code := 9, typ := 5, idx := 2 ^ 31 + 8 * x.1 + x.2 })

def rule09 (b : PromptBook) : Option PbFail :=
  earliest [
    checkEach 9 5 b.budgets (fun before x => !before.any (fun y => y.activity == x.activity) && b.budgetOk x),
    checkIf 9 5 b.budgets.length (b.budgets.any (fun x => x.activity == 0xFFFF)),
    sumsFail b]

def rule0A (b : PromptBook) : Option PbFail :=
  checkEach 10 6 b.ports (fun before x =>
    !before.any (fun y => y.port == x.port) && decide (x.ldCount ≤ 16) && decide (1 ≤ x.biTimeout) && decide (x.biTimeout ≤ 100) &&
    (List.range 16).all (fun l => (x.enable && decide (l < x.ldCount)) || x.ldCap[l]?.getD 0 == 0))

/-- No element occurs twice. -/
def distinct (l : List Nat) : Bool := l.eraseDups.length == l.length

/-- A region descriptor lies within Table 9-1 and R203; `before` are the regions before it. -/
def PromptBook.regionOk (b : PromptBook) (user : Nat) (before : List PbRegion) (g : PbRegion) : Bool :=
  let share := user - b.shareAt user
  let foot := g.nslots * g.per
  g.rid != 0 && decide (g.kind ≤ 1) && decide (g.mode ≤ 3) && (g.holderHint == 0 || g.holderHint == 2 || g.holderHint == 3) &&
  g.size % pageBytes == 0 && decide (pageBytes ≤ g.size) && decide (g.size ≤ 2 ^ 50) &&
  (if g.kind = 0 then g.nslots == 1 && g.altHome == g.home && decide (g.owner ≤ 63)
   else decide (2 ≤ g.nslots) && decide (g.nslots ≤ 8) && g.altHome != g.home && g.owner == 0) &&
  decide (g.home ≤ 16383) && decide (g.altHome ≤ 16383) && decide (g.slotWait ≤ 1000) &&
  decide (1 ≤ g.members.length) && decide (g.members.length ≤ 256) && distinct g.members && g.members.all (fun m => decide (m ≤ 16383)) &&
  g.stripeBase % unitBytes == 0 &&
  (if g.mode = 1 then decide (2 ≤ g.members.length) else if 2 ≤ g.mode then g.members.length % g.n == 0 else true) &&
  !before.any (fun x => x.rid == g.rid) &&
  before.all (fun x => !x.members.any (fun m => g.members.contains m) ||
    decide (x.stripeBase + x.nslots * x.per ≤ g.stripeBase) || decide (g.stripeBase + foot ≤ x.stripeBase)) &&
  (!g.members.contains b.moduleId || decide (g.stripeBase + foot ≤ share))

/-- Image indices of the entries of one KIND of the CAVERN section. -/
def kindIdx (es : List Bytes) (k i : Nat) : Nat :=
  ((((List.range es.length).zip es).filter (fun x => leAt x.2 0 1 == k))[i]?.map (·.1)).getD 0

/-- Puts a failure among the entries of one KIND at its index in the section. -/
def reindex (es : List Bytes) (k : Nat) (f : Option PbFail) : Option PbFail := f.map (fun f => { f with idx := kindIdx es k f.idx })

def rule0B (b : PromptBook) (user : Nat) (cav : List Bytes) : Option PbFail :=
  earliest [
    checkIf 11 7 (kindIdx cav 0 0) (decide (b.moduleId ≤ 16383) && decide (b.sharePct ≤ 100) && decide (b.defaultMode ≤ 3)),
    reindex cav 1 (checkEach 11 7 b.regions (b.regionOk user)),
    checkIf 11 7 (kindIdx cav 1 4096) (decide (b.regions.length ≤ 4096)),
    reindex cav 2 (checkEach 11 7 b.groups (fun before g =>
      decide (g.group ≤ 1023) && !before.any (fun x => x.group == g.group) && decide (2 ≤ g.members.length) && decide (g.members.length ≤ 256) &&
      distinct (g.members.map (·.1)) && decide (1 ≤ g.joinLimit) && decide (g.joinLimit ≤ 10000)))]

/-- Half the near-tier data capacity of R82, in sectors. -/
def halfNear : Nat := 8 * setsPerRegion * 256 / 2

def rule0C (b : PromptBook) : Option PbFail :=
  checkEach 12 8 b.tiers (fun before t =>
    !before.any (fun x => x.part == t.part) && decide (t.quota ≤ 256) && decide ((before.map (·.quota)).sum + t.quota ≤ 256) &&
    (t.part != 0xFF || (t.nearShare == 0 && t.pinLimit == 0)) && decide ((before.map (·.pinLimit)).sum + t.pinLimit ≤ halfNear))

def within (lo hi v : Nat) : Bool := decide (lo ≤ v) && decide (v ≤ hi)

/-- RAS_CFG lies within Table 13-6. -/
def rasCfgOk (v : Nat) : Bool :=
  within 1 255 (bits v 39 32) && within 1 1000 (bits v 25 16) && within 1 168 (bits v 15 8) && within 1 168 (bits v 7 0)

/-- DCTL_CFG or NCTL_CFG lies within Table 12-5 or 12-13; `deep` for DCTL_CFG, which has RD_OFFENDER too. -/
def ctlCfgOk (deep : Bool) (v : Nat) : Bool :=
  decide (bits v 39 32 ≤ 128) && (!deep || within 1 255 (bits v 31 24)) && within 64 4095 (bits v 23 12) && within 1 8 (bits v 7 4) &&
    within 4 12 (bits v 3 0)

def rule0D (b : PromptBook) : Option PbFail :=
  earliest [
    checkIf 13 9 0 (within 1200 4600 b.peakW && within 1000 4000 b.sustainedW && decide (b.sustainedW ≤ b.peakW) && within 200 1800 b.dieAW &&
      within 200 1800 b.dieBW && within 300 1000 b.hubW && within 1 1000 b.deferLimit),
    checkIf 13 10 0 (rasCfgOk b.rasCfg && ctlCfgOk true b.dctlCfg && ctlCfgOk false b.nctlCfg),
    checkIf 13 12 0 (decide (b.mark1 < b.mark2) && decide (b.mark2 < b.mark3) && decide (b.mark3 ≤ 100) && within 1 100 b.wqMark &&
      within 10 100000 b.stallLimit)]

def rule0E (b : PromptBook) (cld : List Bytes) : Option PbFail :=
  earliest [
    checkIf 14 13 (kindIdx cld 0 0) (within 500 20000 b.ackDelayNs && within 5000 1000000 b.rtoInitNs && within b.rtoInitNs 10000000 b.rtoMaxNs &&
      within 50 10000 b.idlePingUs && within 100 1000000 b.livenessUs && decide (b.rtoMaxNs < 1000 * b.livenessUs) && within 100 100000 b.helloRetryUs &&
      within 16 4095 b.rxWindow),
    reindex cld 1 (checkEach 14 13 b.cldPorts (fun before x => !before.any (fun y => y.port == x.port))),
    reindex cld 2 (checkEach 14 13 b.peers (fun before x =>
      !before.any (fun y => y.moduleId == x.moduleId) && x.moduleId != b.moduleId && (!b.cldPorts.isEmpty || x.ips.any (· != 0))))]

/-- Step 7 of R332: the first rule that fails, in table order. `user` is the user-visible capacity (DEDUCED, log 49). -/
def validate (user : Nat) (held : List (Nat × Nat)) (img : Bytes) (ss : List (List Bytes)) (b : PromptBook) : Option PbFail :=
  firstFail [rule01 img ss, rule02 b, rule03 b, rule04 b, rule05 b user, rule06 b, rule07 held b, rule08 b, rule09 b, rule0A b,
    rule0B b user (sec ss 7), rule0C b, rule0D b, rule0E b (sec ss 13)]

/-! ### The checks of R332 -/

/-- How the checks of a prompt book ended: the safe-mode reason (Table 16-16) with the details of R333, or the prompt book. -/
inductive PbCheck where
  | bad (reason : Nat) (fail : Option PbFail)
  | good (b : PromptBook)
deriving DecidableEq, Repr

/-- Checks an image under R332, in order; `claimed`, `ownerHash` and `svn` are the fuses, `run` the prompt book in force and `held` its sealed ranges,
which stay sealed when the layout is unchanged (R339). -/
def checkBook (claimed : Bool) (ownerHash : Bytes) (svn variant user : Nat) (run : PromptBook) (held : List (Nat × Nat)) (img : Bytes) : PbCheck :=
  if !claimed then .bad 1 none
  else match pbSections img with
    | none => .bad 2 none
    | some ss =>
      let b := parseBook img ss
      if sha512 b.ownerKey != ownerHash then .bad 3 none
      else if !ecdsaVerify b.ownerKey (sha512 (pbSigned img)) (pbSig img) then .bad 3 none
      else if b.svn < svn then .bad 4 none
      else if !((b.targetSerial.all (· == 0) || b.targetSerial == Config.serial) && (b.variant == 0 || b.variant == variant)) then .bad 5 none
      else match validate user (if sameLayout run b then held else []) img ss b with
        | some f => .bad 6 (some f)
        | none => .good b

end Sys2Proof.Machine
end

