-- ==== Sys2Proof/Machine/DramOps.lean ====
section
/-! DEFINITION. The commands of the near-tier and deep-tier memory controllers: tracking windows, refresh, temperature readings, retraining and frequency changes (R261 to R273).
A time-driven command acts only once the controller's counter has reached a boundary that no such command has covered yet (DESIGN CHOICE, log 3). -/

namespace Sys2Proof.Machine

/-- Cycles of a controller's counter in a millisecond. -/
def ctlMs (c : Ctl) : Nat := 1000 * ctlMhz c

/-! ### Tracking windows (R263, R266) -/

/-- Index k of the bank of a tracker: the rank of a pair or the pseudo-channel of a stack. -/
def kOfBank : Ctl → Nat → Nat
  | .deep _, b => b / 256
  | .near _, b => b / 64

/-- TRACKER_CLEAR: a tracking window ends, every 32 ms, or every 16 ms for what is under doubling (R263, R266, R267). The credits of a pair are its own: they end with the
shorter window while any of its ranks is under doubling (DEDUCED, log 148). -/
def execTrackerClear (c : Ctl) (s : State) : Out :=
  let d := s.ctl c
  let at_ := nextAt d.clearFrom 0 (16 * ctlMs c)
  if !s.ctlOk c || decide (s.ctlClock c < at_) then .next s
  else
    let all := at_ % (32 * ctlMs c) == 0
    .next (s.modCtl c (fun x => { x with
      clearFrom := at_ + 1
      trackers := if all then [] else x.trackers.filter (fun e => !setHas x.doubled (kOfBank c e.1))
      credits := if all || !x.doubled.isEmpty then [] else x.credits }))

/-! ### Refresh (R261 to R264) -/

/-- Refresh phase and interval of k (R261, R263). -/
def refreshAt (c : Ctl) (k : Nat) (doubled : Bool) : Nat × Nat :=
  match c with
  | .deep _ => (877 * k, if doubled then 3510 else 7020)
  | .near _ => (195 * k, if doubled then 3120 else 6240)

/-- Cycles that a refresh takes: 410 ns of DEEP, 350 ns of NEAR (R261). -/
def refreshCycles : Ctl → Nat
  | .deep _ => 738
  | .near _ => 560

/-- TST_REF treats every due refresh of a controller as meeting an RT request (Table 18-5) (DESIGN CHOICE, log 114). -/
def State.tstPostpones (s : State) : Ctl → Bool
  | .deep p => bit s.wq.tstRef p
  | .near n => bit s.wq.tstRef (8 + n)

/-- A refresh of k waits for RT or PANIC requests, but under doubling (R262, R263). Those of a near-tier controller, which the model grants when they come, are the
commander's to say (DESIGN CHOICE, log 106). -/
def State.refreshHeld (s : State) (c : Ctl) (k : Nat) (rtWaiting : Bool) : Bool :=
  (rtWaiting || s.tstPostpones c || (match c with
    | .deep p => s.rtWaits p k
    | .near _ => false)) && !setHas (s.ctl c).doubled k

/-- Starts a refresh of k. -/
def DCtl.start (d : DCtl) (k now : Nat) : DCtl := { d with running := setAdd d.running k, runAt := tabSet d.runAt k now }

/-- Counts the owed refreshes of k that are postponed and have not been counted yet (R262). -/
def DCtl.postpone (d : DCtl) (k : Nat) : DCtl :=
  let owed := tabGet 0 d.owed k
  { d with cntPostponed := d.cntPostponed + (owed - tabGet 0 d.late k), late := tabSet d.late k owed }

/-- REFRESH_DUE: the owed count rises; the refresh is issued, postponed behind RT or PANIC requests, or forced at four (R261 to R264). One that falls due while another of k
runs is issued, or postponed, after it. -/
def execRefreshDue (c : Ctl) (k : Nat) (rtWaiting : Bool) (s : State) : Out :=
  let d := s.ctl c
  let doubled := setHas d.doubled k
  let p := refreshAt c k doubled
  let at_ := nextAt (tabGet 0 d.dueFrom k) p.1 p.2
  if !(s.ctlOk c && s.kOk c k) || decide (s.ctlClock c < at_) then .next s
  else
    let now := s.ctlClock c
    let held := s.refreshHeld c k rtWaiting
    .next (s.modCtl c (fun d =>
      let d := { d with owed := tabSet d.owed k (min 4 (tabGet 0 d.owed k + 1)), dueFrom := tabSet d.dueFrom k (at_ + 1) }
      let run := setHas d.running k
      if !doubled && tabGet 0 d.owed k = 4 && !(run && setHas d.forced k) then
        (let d := { d with forced := setAdd d.forced k, cntForced := d.cntForced + 1 }
         if run then d else d.start k now)
      else if run then d
      else if held then d.postpone k
      else d.start k now))

/-- REFRESH_ISSUE: a postponed refresh is issued once no RT or PANIC request for k waits (R262, R264). -/
def execRefreshIssue (c : Ctl) (k : Nat) (rtWaiting : Bool) (s : State) : Out :=
  let d := s.ctl c
  if !(s.ctlOk c && s.kOk c k) || tabGet 0 d.owed k == 0 || setHas d.running k then .next s
  else if s.refreshHeld c k rtWaiting && !setHas d.forced k then .next (s.modCtl c (fun d => d.postpone k))
  else .next (s.modCtl c (fun d => d.start k (s.ctlClock c)))

/-- REFRESH_COMPLETE: the time of a refresh has passed and the owed count falls; what is still owed follows back to back, unless RT or PANIC requests have come to wait
outside a forced batch (R261, R262). -/
def execRefreshComplete (c : Ctl) (k : Nat) (s : State) : Out :=
  let d := s.ctl c
  let now := s.ctlClock c
  if !setHas d.running k || decide (now < tabGet 0 d.runAt k + refreshCycles c) then .next s
  else
    let owed := tabGet 0 d.owed k - 1
    let held := s.refreshHeld c k false
    .next (s.modCtl c (fun d =>
      let d := { d with owed := tabSet d.owed k owed, late := tabSet d.late k (tabGet 0 d.late k - 1) }
      if owed = 0 then { d with running := setDel d.running k, forced := setDel d.forced k }
      else if held && !setHas d.forced k then ({ d with running := setDel d.running k } : DCtl).postpone k
      else d.start k now))

/-- What a temperature reading of a logical rank does to its rank: doubling begins at a hot reading, with every owed refresh issued at once, and ends once every logical rank that
reported the doubled rate has given four normal readings in a row (R263; the last DEDUCED, log 41). -/
def DCtl.mr4 (d : DCtl) (c : Ctl) (k lr now : Nat) (hot : Bool) : DCtl :=
  let i := 8 * k + lr
  let d := { d with mr4At := tabSet d.mr4At i (some now) }
  if hot then
    let d1 := { d with normalReads := tabSet d.normalReads i 4, doubled := setAdd d.doubled k }
    if setHas d.doubled k then d1
    else
      -- no boundary of the halved interval lies behind
      let p := refreshAt c k false
      let d1 := if now < nextAt (tabGet 0 d.dueFrom k) p.1 p.2 then { d1 with dueFrom := tabSet d1.dueFrom k (now + 1) } else d1
      if tabGet 0 d.owed k = 0 then d1
      else
        let d1 := { d1 with forced := setAdd d1.forced k, cntBatch := d1.cntBatch + 1 }
        if setHas d1.running k then d1 else d1.start k now
  else
    let reads := tabMod 0 d.normalReads i (· - 1)
    { d with normalReads := reads, doubled := if (List.range 8).any (fun l => decide (0 < tabGet 0 reads (8 * k + l))) then d.doubled else setDel d.doubled k }

/-- MR4_READ: once every 16 refresh intervals MR4 of a logical rank, or the stack temperature, is read (R263); a stack has no logical ranks. -/
def execMr4Read (c : Ctl) (k : Nat) (reading : TempReading) (s : State) : Out :=
  let d := s.ctl c
  let now := s.ctlClock c
  let lr := match c with
    | .deep _ => reading.lr
    | .near _ => 0
  let every := 16 * (refreshAt c k (setHas d.doubled k)).2
  let early := match tabGet none d.mr4At (8 * k + lr) with
    | some t => now / every == t / every
    | none => false
  let hot := match c with
    | .deep _ => reading.doubledRate
    | .near _ => decide (1360 ≤ reading.temp)
  if !(s.ctlOk c && s.kOk c k) || early || decide ((if s.variant = 2 then 4 else 8) ≤ lr) then .next s
  else .next (s.modCtl c (fun d => d.mr4 c k lr now hot))

/-! ### Retraining (R265) -/

/-- RETRAIN_ROUND: 2^RETRAIN_LOG2 ms have passed, or the temperature has changed by 8 °C or more since the last round (in 1/16 °C) (R265). -/
def execRetrainRound (c : Ctl) (k : Nat) (periodic : Bool) (temp : Int) (s : State) : Out :=
  if !s.ctlOk c then .next s
  else
    let d := s.ctl c
    let last := tabGet (0 : Int) d.lastTemp k
    let at_ := nextAt (tabGet 1 d.roundFrom k) 0 (2 ^ d.retrainLog2 * ctlMs c)
    if periodic && decide (at_ ≤ s.ctlClock c) then
      .next (s.modCtl c (fun d => { d with roundFrom := tabSet d.roundFrom k (at_ + 1), steps := tabSet d.steps k 64, lastTemp := tabSet d.lastTemp k temp }))
    else if decide (128 ≤ (temp - last).natAbs) then
      .next (s.modCtl c (fun d => { d with steps := tabSet d.steps k 64, lastTemp := tabSet d.lastTemp k temp }))
    else .next s

/-- The ranks of a subchannel of a pair, or the pseudo-channel itself (R261). -/
def stepKs : Ctl → Nat → List Nat
  | .deep _, k => [2 * k, 2 * k + 1]
  | .near _, k => [k]

/-- Every written line of a rank becomes poisoned (R284). -/
def State.poisonRank (s : State) (k : Nat) : State :=
  (s.mem.valid.filter (fun u => s.rankOf (u / 16) == k)).foldl (fun s u =>
    (List.range 4).foldl (fun s i => s.setPoison (4 * u + i) 0) s) s

/-- A subchannel has failed in both ranks: both retire, or their lines are poisoned when no room remains (R265, R284). -/
def State.failSubchannel (s : State) (pair k : Nat) : State :=
  [2 * k, 2 * k + 1].foldl (fun s r =>
    let sr := srOfPair pair r
    let s := ({ s with ras := { s.ras with subFailed := setAdd s.ras.subFailed sr } } : State).retireRank sr
    if (s.rank sr).st = 5 then s.poisonRank sr else s) s

/-- Runs one step of a round; a step that fails twice reports its subchannel (R265) (DESIGN CHOICE, log 84). -/
def State.retrain (s : State) (c : Ctl) (k : Nat) (ok : Bool) : State :=
  let s := s.modCtl c (fun d => { d with
    steps := tabMod 0 d.steps k (· - 1), cntSteps := d.cntSteps + 1,
    lastStepAt := tabSet d.lastStepAt k (some (s.ctlClock c)), deferSince := tabSet d.deferSince k none })
  if ok then s
  else match c with
    | .deep p => s.failSubchannel p k
    | .near _ => s

/-- A PANIC request waits for a subchannel of a pair (R265). -/
def State.panicAt (s : State) (c : Ctl) (k : Nat) : Bool :=
  match c with
  | .deep p => s.panicWaits p (fun b => s.rankOf b % 8 / 2 == k)
  | .near _ => false

/-- RETRAIN_STEP: a step of the running round; it waits 32 µs after the last one of its subchannel, and is deferred behind owed refreshes and
PANIC requests (R265). -/
def execRetrainStep (c : Ctl) (k : Nat) (panicWaiting ok okAgain : Bool) (s : State) : Out :=
  let d := s.ctl c
  let now := s.ctlClock c
  let early := match tabGet none d.lastStepAt k with
    | some t => decide (now < t + 32 * ctlMhz c)
    | none => false
  if !s.ctlOk c || tabGet 0 d.steps k == 0 || early || d.changing then .next s
  else if panicWaiting || s.panicAt c k || (stepKs c k).any (fun r => decide (2 ≤ tabGet 0 d.owed r)) then
    .next (s.modCtl c (fun d => { d with
      deferSince := if (tabGet none d.deferSince k).isSome then d.deferSince else tabSet d.deferSince k (some now) }))
  else .next (s.retrain c k (ok || okAgain))

/-- RETRAIN_DEFER_EXPIRY: a step deferred for 1 ms begins regardless (R265) (DEDUCED, log 45). -/
def execRetrainDeferExpiry (c : Ctl) (k : Nat) (s : State) : Out :=
  let d := s.ctl c
  match tabGet none d.deferSince k with
  | none => .next s
  | some t =>
    if s.ctlClock c < t + 1000 * ctlMhz c ∨ tabGet 0 d.steps k = 0 then .next s
    else .next ((s.retrain c k true).modCtl c (fun d => { d with cntDefer := d.cntDefer + 1 }))

/-! ### Frequency change (R270 to R272) -/

/-- FREQ_CHANGE_START: the lowest pair away from its target point stops granting; a PANIC request delays it by at most one DEEP window (R271). -/
def execFreqChangeStart (pair : Nat) (panicWaiting : Bool) (s : State) : Out :=
  let d := s.ctl (.deep pair)
  let blocked := (List.range 8).any (fun p =>
    let x := s.ctl (.deep p)
    x.changing || (decide (p < pair) && x.opCur != x.opTarget))
  if !s.ctlOk (.deep pair) || d.opCur == d.opTarget || blocked then .next s
  else
    let waiting := match d.paused with
      | some t => decide (s.clk.deep < t + 18432)
      | none => true
    if (panicWaiting || s.panicWaits pair (fun _ => true)) && waiting then
      .next (s.modCtl (.deep pair) (fun d => { d with paused := some (d.paused.getD s.clk.deep) }))
    else
      -- steps 1 to 3 of Table 12-4: grants stop and every owed refresh is issued
      .next (s.modCtl (.deep pair) (fun d => { d with changing := true, paused := some s.clk.deep, owed := [], running := [], forced := [], late := [] }))

/-- Logical ranks of a rank (R258). -/
def State.lrs (s : State) : Nat := if s.variant = 2 then 4 else 8

/-- FREQ_CHANGE_DONE: `hot` has the reading of logical rank l of rank k at 8 × k + l: steps 5 to 7 of Table 12-4: the target point is in use, MR4 is read, the pause is counted (R270 to R272) (DEDUCED, log 41). -/
def execFreqChangeDone (pair : Nat) (hot : List Bool) (pauseNs : Nat) (s : State) : Out :=
  if !(s.ctl (.deep pair)).changing then .next s
  else
    let now := s.clk.deep
    .next (s.modCtl (.deep pair) (fun d =>
      let d := { d with changing := false, paused := none, opCur := d.opTarget, cntFreq := d.cntFreq + 1, cntPauseNs := d.cntPauseNs + pauseNs }
      (List.range (8 * s.lrs)).foldl (fun d i => if s.kOk (.deep pair) (i / s.lrs) then
        d.mr4 (.deep pair) (i / s.lrs) (i % s.lrs) now (hot[8 * (i / s.lrs) + i % s.lrs]?.getD false) else d) d)).wakeReads

/-- DCTL_XLATE_MA, in the management space (Table 12-8). -/
def dctlXlateAddr (pair : Nat) : Nat := 0x100900000 + 0x1000 * pair + 0x10

/-- DCTL_XLATE_MA: the address to translate (Table 12-8); a requester without rights is refused (R391). -/
def execDctlXlateMa (rq : Requester) (pair : Nat) (acc : Access64) (s : State) : Out :=
  if !(s.mgmtUp && decide (pair < 8)) then .next s
  else if !s.mgmtRights rq then .next (s.badAccess (s.rqPart rq) (dctlXlateAddr pair))
  else
    match s.write64 rq (dctlXlateAddr pair) (s.ctl (.deep pair)).xlateMa acc with
    | (some v, s) => .next (s.setXlateMa pair v)
    | (none, s) => .next s

end Sys2Proof.Machine
end

