-- ==== Sys2Proof/Machine/Windows.lean ====
section
/-! DEFINITION. Budget windows, DevLoad, panic and throttles (R54, R240, R241, R247, R249, R253, R255, R269, R298). -/

namespace Sys2Proof.Machine

/-! ### DevLoad (R54, R255) -/

/-- Use has reached a guarantee; one of 0 is reached by any use above 0 (R255). -/
def reached (g use : Nat) : Bool := if g = 0 then decide (0 < use) else decide (g ≤ use)

/-- Use is below half of a guarantee; a use of 0 is below half of one of 0 (R255). -/
def belowHalf (g use : Nat) : Bool := if g = 0 then use == 0 else decide (2 * use < g)

/-- Occupancy level of a port's request entries against the queue marks, which are in percent (Table 2-5). -/
def State.occupancyLevel (s : State) (port : Nat) : Nat :=
  let n := 100 * s.entries port
  if n < 1024 * s.pb.mark1 then 0 else if n < 1024 * s.pb.mark2 then 1 else if n < 1024 * s.pb.mark3 then 2 else 3

/-- Budget level of an LD (Table 11-4). -/
def State.budgetLevel (s : State) (i : Nat) : Nat :=
  match s.pb.partOfLd i with
  | none => 0
  | some p =>
    let gN := s.entitled p clsNear
    let gD := s.entitled p clsDeep
    let gH := s.entitled (actLd i) clsHost
    let uN := s.useLast clsNear p
    let uD := s.useLast clsDeep p
    let uH := tabGet 0 s.bud.last (budKey clsHost (i / 16) (actLd i))
    if reached gH uH || s.bud.rose.contains i || s.bud.throttles.any (fun t => t.act == p) then 3
    else if reached gN uN || reached gD uD then 2
    else if belowHalf gN uN && belowHalf gD uD && belowHalf gH uH then 0
    else 1

/-- Forms the DevLoad of a port's LDs at the start of a HOST_EGRESS window (R54). -/
def State.formDevLoad (s : State) (port : Nat) : State :=
  let lds := (List.range 16).filter (s.ldEnabled port)
  let occ := s.occupancyLevel port
  let vals := lds.map (fun l => (l, max occ (s.budgetLevel (16 * port + l))))
  let s := s.modPort port (fun p => { p with devLoad := vals })
  { s with bud := { s.bud with rose := s.bud.rose.filter (fun i => i / 16 != port) } }

/-! ### Windows (R240, R241, R249) -/

/-- The use of a point's window, by activity. -/
def State.useOf (s : State) (cls point : Nat) : List (Nat × Nat) :=
  (s.bud.use.filter (fun e => e.1 / 65536 == cls * 1024 + point)).map (fun e => (e.1 % 65536, e.2))

/-- LDs whose DevLoad an activity's shortfall reaches: an LD itself, or those of a partition. -/
def State.ldsOfAct (s : State) (act : Nat) : List Nat :=
  if act < 64 then s.pb.ldsOf act else if 0x100 ≤ act then [act - 0x100] else []

/-- Activities with a request waiting at a point: at the pairs, at the issue logic, in the sessions of a Coldon port, and those the commander names at a near-tier controller or
a CXL port, where the model grants each request when it comes (R249; DESIGN CHOICE, log 106). -/
def State.waitsAt (s : State) (cls point : Nat) (named : List Nat) : List Nat :=
  (if cls = 1 then (s.deepAsks point).map (·.act)
   else if cls = 2 ∨ cls = 3 then s.slotAsks cls
   else if cls = 5 then (s.cld.sessions.filter (fun x => x.port == point)).flatMap (fun x => x.sendq.map (·.1))
   else named).eraseDups

/-- A window ends at a point: uses become the last ones and return to 0, and windows over share, unmet and throttled are counted; the next one goes by the capacity, the scale
and the limits of now (R241, R249, R251, R300). An activity below its share with a request waiting is unmet (DEDUCED, log 25). -/
def State.endWindow (s : State) (cls point : Nat) (named : List Nat) : State :=
  let uses := s.useOf cls point
  let reachedShare := uses.filter (fun x => decide (0 < x.2) && decide (s.shareAt cls point x.1 ≤ x.2))
  let unmet := (s.waitsAt cls point named).filter (fun a => decide (s.useAt cls point a < s.shareAt cls point a))
  let thr := if cls = 1 then s.bud.throttles.filter (fun t => t.pair == point) else []
  let here := fun (e : Nat × Nat) => e.1 / 65536 == pointKey cls point
  let inc := fun (t : Tab Nat) (acts : List Nat) => acts.foldl (fun t a => tabMod 0 t (actKey cls a) (satAdd 0xFFFFFFFF 1)) t
  let s : State := { s with bud := { s.bud with
    last := uses.foldl (fun t x => tabSet t (budKey cls point x.1) x.2) (s.bud.last.filter (fun e => !here e)),
    total := uses.foldl (fun t x => tabMod 0 t (actKey cls x.1) (fun n => (n + x.2) % 2 ^ 64)) s.bud.total,
    use := s.bud.use.filter (fun e => !here e),
    overWin := inc s.bud.overWin (reachedShare.map (·.1)),
    unmet := inc s.bud.unmet unmet,
    throttledWin := inc s.bud.throttledWin (thr.map (·.act)),
    rose := s.bud.rose ++ ((unmet ++ thr.map (·.act)).flatMap s.ldsOfAct).filter (fun i => !s.bud.rose.contains i),
    throttles := s.bud.throttles.map (fun t => if cls = 1 ∧ t.pair = point then { t with left := t.left - 1 } else t) } }
  let s := if cls = 1 then s.modCtl (.deep point) (fun d => { d with panicUse := [] }) else s
  s.beginWindows cls [point]

/-- The counter of a point's windows, and their length in its cycles (R35, R240, Table 11-1). A HOST_EGRESS window begins with the port's entry to L0. -/
def State.pointClock (s : State) (cls point : Nat) : Nat × Nat :=
  if cls = 0 then (s.ctlClock (.near point), 16384)
  else if cls = 1 then (s.clk.deep, 18432)
  else if cls = 2 ∨ cls = 3 then (if point < 32 then s.clk.arith.1 else s.clk.arith.2, 17920)
  else if cls = 4 then (tabGet 0 s.clk.link point - (s.port point).l0At, 10240 * (s.port point).rate / 64)
  else (tabGet 0 s.clk.peer point, 8000)

/-- The same counter where the budgets began. -/
def State.pointSince (s : State) (cls point : Nat) : Nat := if cls = 4 then 0 else (State.pointClock { s with clk := s.bud.since } cls point).1

/-- The next boundary of a point's windows that no command has covered (DESIGN CHOICE, log 3). -/
def State.nextBoundary (s : State) (cls point : Nat) : Nat :=
  nextAt ((tabFind s.bud.winFrom (pointKey cls point)).getD (s.pointSince cls point + 1)) 0 (max (s.pointClock cls point).2 1)

/-- The arbitration point exists and is in service: its counter runs. -/
def State.pointRuns (s : State) (cls point : Nat) : Bool :=
  s.dataUp && decide (cls < 6) && decide (point < pointsOf cls) &&
    (cls != 4 || (s.port point).link == .l0) && (cls != 5 || (s.cport point).up)

/-- Bytes that a near-tier controller has granted at PANIC in the window that ends, by master: each up to PANIC_CAP sixty-fourths of its reservation share there (R269). -/
def State.nearPanic (s : State) (point : Nat) (panic : List (Nat × Nat)) : State :=
  let cap := (s.ctl (.near point)).panicCap
  let n := ((List.range 3).map (fun m =>
    min (tabGet 0 panic m) (min (cap * ((s.masterActs m).map (s.shareAt clsNear point)).sum / 64) ((s.masterActs m).map (s.useAt clsNear point)).sum))).sum
  s.modCtl (.near point) (fun d => { d with cntPanicBytes := d.cntPanicBytes + n })

/-- WINDOW_BOUNDARY: a window of an arbitration point ends once its counter has reached the boundary (R240, R241); what a throttle held back at a pair is taken up (R253).
`waiting` and `panic` say what waited, and what was granted at PANIC, at a near-tier controller or a CXL port (DESIGN CHOICE, log 106). -/
def execWindowBoundary (cls point : Nat) (waiting : List Nat) (panic : List (Nat × Nat)) (s : State) : Out :=
  let at_ := s.nextBoundary cls point
  if !s.pointRuns cls point || decide ((s.pointClock cls point).1 < at_) then .next s
  else
    let s := if cls = 0 then s.nearPanic point panic else s
    let s := s.endWindow cls point waiting
    let s := { s with bud := { s.bud with winFrom := tabSet s.bud.winFrom (pointKey cls point) (at_ + 1) } }
    .next (if cls = 4 then s.formDevLoad point else if cls = 1 then s.wakeReads else s)

/-- ADMISSION_WINDOW: an admission window begins: the count of starts begins again (R298). -/
def execAdmissionWindow (s : State) : Out :=
  let at_ := nextAt s.disp.winFrom 0 14336
  if !s.dataUp || decide (s.clk.hmesh < at_) then .next s else .next { s with disp := { s.disp with starts := 0, winFrom := at_ + 1 } }

/-- THROTTLE_END: THROTTLE_WINDOWS windows have passed without a new offence (R253). -/
def execThrottleEnd (pair activity : Nat) (s : State) : Out :=
  match s.throttle? pair activity with
  | none => .next s
  | some t => if t.left ≠ 0 then .next s
    else .next ({ s with bud := { s.bud with throttles := s.bud.throttles.filter (fun (t : Throttle) => !(t.pair == pair && t.act == trackAct activity)) } } : State).wakeReads

end Sys2Proof.Machine
end

