-- ==== Sys2Proof/Machine/Links.lean ====
section
/-! DEFINITION. CXL links, port and LD resets, MSI-X masks and HDM decoders (R35, R37, R38, R41, R42, R75, R76, R80, R372). -/

namespace Sys2Proof.Machine

/-! ### Links (R35, R37) -/

/-- A port may leave Detect: the module is at or past step 13 (or in safe mode), its engine is in service, it is enabled, and PERST_N is high (R334, R372). -/
def State.portReady (s : State) (p : Nat) : Bool :=
  s.hubUp && decide (p < 8) && !s.isFailed (.cxlPort p) && !(s.port p).perstLow &&
    (s.mgmt.phase == .safe || ((s.pb.port? p).map (·.enable)).getD false)

/-- The fastest rate and widest link a port offers: the prompt book's, or x8 at 64 GT/s in safe mode (R37, R337, Table 16-9). -/
def State.portMax (s : State) (p : Nat) : Nat × Bool :=
  if s.mgmt.phase = .safe then (64, true)
  else match s.pb.port? p with
    | some x => (64 / 2 ^ x.maxRate, !x.maxX4)
    | none => (64, true)

/-- LINK_TRAINING: the port trains to the best of what both sides offer (R37); without 256-byte flit CXL.io and CXL.mem it returns to Detect,
recorded at most once per MGMT second. `rate` and `x8` are the partner's best. -/
def execLinkTraining (port rate : Nat) (x8 flitOk : Bool) (s : State) : Out :=
  if !(s.portReady port && (s.port port).link == .detect) then .next s
  else if !flitOk then
    let s := s.modPort port (fun p => { p with flexCount := p.flexCount + 1 })
    .next (s.logRated (0x1000 + port) 1 (fun n s => s.logEv .flexbusMismatch 0xFF (16 * port) n 0))
  else
    let m := s.portMax port
    .next (s.modPort port (fun p => { p with link := .trained, rate := min rate m.1, x8 := x8 && m.2 }))

/-- The enabled LDs of a port, by number. -/
def State.portLds (s : State) (port : Nat) : List Nat := ((List.range 16).filter (s.ldEnabled port)).map (fun l => 16 * port + l)

/-- Starts the HOST_EGRESS windows of a port anew, at its trained rate and width: the use of the window in progress is forgotten (R35, R240, R251). -/
def State.freshEgress (s : State) (port : Nat) : State :=
  (({ s with bud := { s.bud with
    use := s.bud.use.filter (fun e => e.1 / 65536 != pointKey 4 port), winFrom := tabDel s.bud.winFrom (pointKey 4 port) } } : State).derateOne 4 port).beginWindows 4 [port]

/-- LINK_UP: the trained port enters L0, and its windows count from there (R35). -/
def execLinkUp (port : Nat) (s : State) : Out :=
  if !(s.portReady port && (s.port port).link == .trained) then .next s
  else
    -- a host that has come up again is a dead host no more (R50)
    let s := (s.portLds port).foldl (fun s i => s.modLd i (fun l => { l with dead := false, deadLines := [] })) s
    .next ((((s.modPort port (fun p => { p with link := .l0, l0At := tabGet 0 s.clk.link port })).freshEgress port).formDevLoad port))

/-- LINK_RETRAIN: the link changes its rate or width; the window in progress ends (R35, R251) (DEDUCED, log 117). -/
def execLinkRetrain (port rate : Nat) (x8 : Bool) (s : State) : Out :=
  if (s.port port).link ≠ .l0 ∨ !s.portReady port then .next s
  else
    let m := s.portMax port
    let s := (s.endWindow 4 port []).modPort port (fun p => { p with rate := min rate m.1, x8 := x8 && m.2, l0At := tabGet 0 s.clk.link port })
    .next ((s.freshEgress port).formDevLoad port)

/-! ### Port and LD resets (R38, R80, Table 3-21) -/

/-- A port reset (R38, Table 3-21): its requests go, its LDs are dead, their configuration and the port's keys are cleared. `cause` as in Table 17-4. -/
def State.portReset (s : State) (port cause : Nat) : State :=
  let s := { s with host := { s.host with reqs := s.host.reqs.filter (fun r => r.port != port), ingress := s.host.ingress.filter (fun x => x.port != port) } }
  let lds := s.portLds port
  let s := lds.foldl (fun s i => s.declareDead i) s
  let s := (lds ++ [128 + port]).foldl (fun s i => s.resetLdConfig i false) s
  let s := s.modPort port (fun p => { p with
    link := .detect, rate := 0, x8 := false, cachemem := {}, ioLink := {}, selective := [], devLoad := [] })
  let s := (s.logEv .portReset 0xFF (16 * port) lds.length cause).pumpSnp.pumpReqs
  (s.qDiscards [port, 8 + port]).freshEgress port

/-- LINK_DOWN (R38). -/
def execLinkDown (port : Nat) (s : State) : Out :=
  if (s.port port).link = .detect then .next s else .next (s.portReset port 2)

/-- PERST_N_ASSERT: the pin falls, and the port is reset and held down (R38, R372). -/
def execPerstNAssert (port : Nat) (s : State) : Out :=
  if 8 ≤ port ∨ (s.port port).perstLow then .next s
  else
    let s := s.modPort port (fun p => { p with perstLow := true })
    .next (if s.hubUp then s.portReset port 0 else s)

/-- PERST_N_RELEASE: the pin rises; the port may train again (R372). -/
def execPerstNRelease (port : Nat) (s : State) : Out :=
  if 8 ≤ port then .next s else .next (s.modPort port (fun p => { p with perstLow := false }))

/-- HOT_RESET (R80). -/
def execHotReset (port : Nat) (s : State) : Out :=
  if (s.port port).link ≠ .l0 then .next s else .next (s.portReset port 1)

/-- FUNCTION_LEVEL_RESET: an LD reset (R80, Table 3-21); a background mailbox command goes on. -/
def execFunctionLevelReset (port ld : Nat) (s : State) : Out :=
  if (s.port port).link ≠ .l0 || !s.ldEnabled port ld then .next s
  else
    let i := ldIdx port ld
    let s := (s.declareDead i).resetLdConfig i true
    -- the LD's bookmarks move to LOG_NEXT (R351)
    let s := s.modLd i (fun l => { l with bmk := [(0, s.mgmt.logNext), (1, s.mgmt.logNext), (2, s.mgmt.logNext), (3, s.mgmt.logNext)] })
    .next ((s.logEv .ldReset ((s.pb.partOfLd i).getD 0xFF) i 1 0).pumpSnp.pumpReqs)

/-! ### MSI-X (R75, R76) -/

/-- Sends the pending messages of an LD that are unmasked and enabled now. -/
def State.msixPending (s : State) (i : Nat) : State :=
  let l := s.ld i
  if !(l.msixEnable && !l.funcMask) then s
  else
    let go := l.pend.filter (fun v => setHas l.unmasked v)
    go.foldl (fun s v => s.emit (.msix i v none)) (s.modLd i (fun l => { l with pend := l.pend.filter (fun v => !setHas l.unmasked v) }))

/-- MSIX_UNMASK: host software masks, unmasks, enables or disables; what is pending and may be sent is sent (R76). -/
def execMsixUnmask (port ld : Nat) (act : MsixAct) (s : State) : Out :=
  if (s.port port).link ≠ .l0 || !s.ldEnabled port ld then .next s
  else
    let i := ldIdx port ld
    let s := s.modLd i (fun l => match act with
      | .maskEntry v m => if v < 64 then { l with unmasked := setPut l.unmasked v (!m) } else l
      | .maskFunction m => { l with funcMask := m }
      | .enable on => { l with msixEnable := on })
    .next (s.msixPending i)

/-! ### HDM decoders (R41, R42) -/

/-- A decoder's settings are ones the module supports (R41). -/
def decoderShapeOk (d : Decoder) : Bool :=
  [1, 2, 3, 4, 6, 8, 12, 16].contains d.ways && [256, 512, 1024, 2048, 4096, 8192, 16384].contains d.gran &&
    d.base % 0x10000000 == 0 && d.size % 0x10000000 == 0 && d.skip % 0x10000000 == 0

/-- Kind of a window for R42: HDM-H, HDM-DB or aperture. -/
def Span.kind (x : Span) : Nat := if x.apt then 2 else x.rng.kind

/-- The module commits a decoder: its span lies within the capacity, covers windows of one kind, and BI fits that kind (R42). A span that covers no range or
aperture, which the spec gives no kind, commits with BI clear (DESIGN CHOICE, log 131). -/
def State.decoderOk (s : State) (port ld idx : Nat) (ds : Tab Decoder) : Bool :=
  let d := tabGet {} ds idx
  let base := dpaBase ds idx
  let n := d.size / max d.ways 1
  let spans := (s.pb.layout (ldIdx port ld)).filter (fun x => decide (x.base < base + n) && decide (base < x.base + x.size))
  decoderShapeOk d && decide (base + n ≤ s.ldCap port ld) &&
    (match spans with
      | [] => !d.bi
      | x :: t => t.all (fun y => y.kind == x.kind) && d.bi == (x.kind == 1))

/-- HDM_DECODER_COMMIT: host software writes and commits a decoder; a refusal sets Error Not Committed (R42). -/
def execHdmDecoderCommit (port ld idx base size skip ways gran : Nat) (bi : Bool) (s : State) : Out :=
  if (s.port port).link ≠ .l0 || !s.ldEnabled port ld || decide (8 ≤ idx) then .next s
  else
    let i := ldIdx port ld
    let d : Decoder := { base := base, size := size, skip := skip, ways := ways, gran := gran, bi := bi }
    let ds := tabSet (s.ld i).decoders idx d
    let ok := s.decoderOk port ld idx ds
    .next (s.modLd i (fun l => { l with decoders := tabSet ds idx { d with committed := ok, err := !ok } }))

end Sys2Proof.Machine
end

