-- ==== Sys2Proof/Machine/Tiers.lean ====
section
/-! DEFINITION. Placement hints and evictions: the TIER_HINT registers (R87, R88, R90). -/

namespace Sys2Proof.Machine

/-- The partition whose registers an LD's BAR0 shows, when the LD's host can reach them: its link is in L0, the LD is enabled and owned. -/
def State.ldPart (s : State) (port ld : Nat) : Option Nat :=
  if s.hubUp && decide (port < 8) && (s.port port).link == .l0 && s.ldEnabled port ld && s.mgmt.phase != .safe then s.pb.partOfLd (ldIdx port ld) else none

/-- Unpins a resident block. -/
def State.unpinBlk (s : State) (blk : Nat) : State := s.nearMod blk (fun t => { t with pinned := false })

/-- What a hint does to a resident block when it is applied (last column of Table 4-1). -/
def State.hintBlk (s : State) (blk hint : Nat) : State :=
  if hint = 1 then s.pinBlk blk
  else if hint = 2 then s.evictBlk blk
  else s.unpinBlk blk

/-- The resident blocks of `n` bytes from an address. -/
def State.residentIn (s : State) (a n : Nat) : List Nat :=
  (s.mem.tags.filter (fun t => decide (a ≤ 4096 * t.blk) && decide (4096 * t.blk < a + n))).map (·.blk)

/-- Sets the standing hint of every page of `n` bytes from offset `off` of a range, and applies it to their resident blocks (R87, R88). -/
def State.setHint (s : State) (r : PbRange) (idx off n hint : Nat) : State :=
  let a := r.addr idx off
  let first := a / pageBytes
  let cnt := n / pageBytes
  let s := s.modPart r.part (fun x => { x with
    pageHint := if hint = r.hint then x.pageHint.filter (fun e => decide (e.1 < first) || decide (first + cnt ≤ e.1))
      else (List.range cnt).foldl (fun t i => tabSet t (first + i) hint) x.pageHint })
  ((s.residentIn a n).foldl (fun s b => s.hintBlk b hint) s).settleTables

/-- Sets the hint of a whole range-list entry, and the value its TIER_HINT reads. -/
def State.setRangeHint (s : State) (p n hint : Nat) : State :=
  match s.pb.range? p n with
  | none => s
  | some r => (s.setHint r n 0 r.size hint).modPart p (fun x => { x with hintReg := tabSet x.hintReg n hint })

/-- Evicts every block of a range-list entry: DIRTY ones are written back, all are dropped (R88). -/
def State.evictRange (s : State) (p n : Nat) : State :=
  match s.pb.range? p n with
  | none => s
  | some r => ((s.residentIn (r.addr n 0) r.size).foldl (fun s b => s.evictBlk b) s).settleTables

/-- A page lies in one of some page ranges. -/
def inPages (ps : List (Nat × Nat)) (page : Nat) : Bool := ps.any (fun x => decide (x.1 ≤ page) && decide (page < x.1 + x.2))

/-- PLACE sets pages of an entry whose eviction is in progress: the later change stands there (R87). -/
def State.notePlaced (s : State) (p n first cnt : Nat) : State :=
  if (tabFind (s.part p).evicting n).isNone then s
  else s.modPart p (fun x => { x with evictPlaced := tabMod [] x.evictPlaced n (fun l => l ++ [(first, cnt)]) })

/-- The eviction of an entry ends: what came into the near tier while it ran is evicted, and the hint written with it is applied, except on the pages that
PLACE has set since (R87, R88, R90). -/
def State.endEvict (s : State) (p n : Nat) (hint : Option Nat) (placed : List (Nat × Nat)) : State :=
  match s.pb.range? p n with
  | none => s
  | some r =>
    if placed.isEmpty then
      let s := s.evictRange p n
      match hint with
      | some h => s.setRangeHint p n h
      | none => s
    else
      let s := (((s.residentIn (r.addr n 0) r.size).filter (fun b => !inPages placed (4096 * b / pageBytes))).foldl (fun s b => s.evictBlk b) s).settleTables
      match hint with
      | some h =>
        let free := (List.range (r.size / pageBytes)).filter (fun i => !inPages placed (r.addr n (pageBytes * i) / pageBytes))
        (free.foldl (fun s i => s.setHint r n (pageBytes * i) pageBytes h) s).modPart p (fun x => { x with hintReg := tabSet x.hintReg n h })
      | none => s

/-- A write of TIER_HINT[n] (Table 4-2, R90). -/
def State.tierWrite (s : State) (p n value : Nat) : State :=
  let hint := value % 8
  if (s.pb.rangesOf p).length ≤ n ∨ 4 ≤ hint then s.modPart p (fun x => { x with badWrites := x.badWrites + 1 })
  else if (tabFind (s.part p).evicting n).isSome then
    -- with EVICT it joins the eviction in progress, and its hint is applied after it; without, its hint stands from now on
    if bit value 8 then s.modPart p (fun x => { x with evicting := tabSet x.evicting n (some hint), evictPlaced := tabDel x.evictPlaced n })
    else (s.setRangeHint p n hint).modPart p (fun x => { x with evicting := tabSet x.evicting n none })
  else if bit value 8 then (s.evictRange p n).modPart p (fun x => { x with evicting := tabSet x.evicting n (some hint) })
  else s.setRangeHint p n hint

/-- TIER_HINT_WRITE: an LD's host writes TIER_HINT[n] (R87). -/
def execTierHintWrite (port ld n value : Nat) (s : State) : Out :=
  match s.ldPart port ld with
  | none => .next s
  | some p => .next (s.tierWrite p n value)

/-- EVICT: the write has EVICT set (R88). -/
def execEvict (port ld n value : Nat) (s : State) : Out :=
  match s.ldPart port ld with
  | none => .next s
  | some p => .next (s.tierWrite p n (if bit value 8 then value else value + 256))

/-- EVICT_DONE: EVICT_BUSY clears, and the hint written with the eviction is applied (R88, R90). -/
def execEvictDone (part n : Nat) (s : State) : Out :=
  match tabFind (s.part part).evicting n with
  | none => .next s
  | some h =>
    let placed := tabGet [] (s.part part).evictPlaced n
    .next ((s.modPart part (fun x => { x with evicting := tabDel x.evicting n, evictPlaced := tabDel x.evictPlaced n })).endEvict part n h placed)

end Sys2Proof.Machine
end

