-- ==== Sys2Proof/Machine/Resets.lean ====
section
/-! DEFINITION. What the resets share: stopping operations, partition resets, key replacement and erasure, and the module reset (R60, R77 to R81, R109, R135, R215, R320, R323, R324, R326, R340, Table 3-21). -/

namespace Sys2Proof.Machine

/-! ### Stopping an operation (R78, R109, R215) -/

/-- A block of a group names a slot: by its block-map entry, or of a cavern region by what the sealing engines made of it. -/
def State.groupNames (s : State) (r : SealedRange) (g : GGroup) (n : Nat) : Bool :=
  r.coded.any (fun x => decide (g.first ≤ x.1) && decide (x.1 < g.past) && x.2 == n) ||
    (!isLocal (4096 * g.first) && (List.range (g.past - g.first)).any (fun i => match s.ent? (g.first + i) with
      | some e => e.mode == modeGolas && e.slot == n
      | none => false))

/-- A group lets go of the slots that none of its blocks names; `cur` stays named when `keep` (R109, R122). -/
def State.regroup (s : State) (part idx : Nat) (keep : Bool) : State :=
  { s with gol := { s.gol with sealedRanges := s.gol.sealedRanges.map (fun r =>
      if r.part == part && r.range == idx then
        { r with groups := r.groups.map (fun g =>
          let old := g.old.filter (s.groupNames r g)
          match g.cur with
          | some c => if keep || s.groupNames r g c then { g with old := old } else { g with cur := old.head?, old := old.drop 1 }
          | none => if keep then { g with old := old } else { g with cur := old.head?, old := old.drop 1 }) }
      else r) } }

/-- Takes an operation off the queues of the sealing engines; slots it was building return to FREE, and its range's groups keep what they name (R109). -/
def State.stopSeal (s : State) (id : Nat) : State :=
  let mine := s.gol.sealedRanges.filter (fun r => r.queue.contains id)
  let s := { s with gol := { s.gol with
    slots := s.gol.slots.map (fun (x : Nat × GSlot) => if x.2.st == 1 && x.2.op == id && !x.2.imp then (x.1, { x.2 with st := 0, owner := 0, lens := [] }) else x),
    sealedRanges := s.gol.sealedRanges.map (fun (r : SealedRange) => { r with queue := r.queue.filter (· != id) }) } }
  mine.foldl (fun s r => if r.queue.head? = some id then s.regroup r.part r.range false else s) s

/-- PUBLISH, and SEAL and UNSEAL of a VERSIONED region, which are publishes (R214). -/
def Op.publishes (o : Op) : Bool := o.opcode == 0x40 || o.opcode == 0x10 || o.opcode == 0x11

/-- Drops near-tier blocks without write-back. -/
def State.dropBlks (s : State) (bs : List Nat) : State := bs.foldl (fun s b => s.nearDel b) s

/-- Drops what the near tier and the cue areas hold of a cavern range of a partition, without write-back (R213, R218). -/
def State.dropLocal (s : State) (p rid : Nat) : State :=
  let rs := s.pb.rangesOf p
  let mine := ((List.range rs.length).zip rs).filter (fun x => x.2.regionId == rid)
  let has := fun (blk : Nat) => mine.any (fun x => decide (localKey p x.1 0 ≤ 4096 * blk) && decide (4096 * blk < localKey p x.1 0 + x.2.size))
  let s := s.dropBlks ((s.mem.tags.filter (fun t => has t.blk)).map (·.blk))
  { s with mem := { s.mem with
    cueArea := s.mem.cueArea.filter (fun (c : CueCopy) => !has c.blk), bmap := s.mem.bmap.filter (fun e => !has e.1) } }

/-- Abandons the publish of an operation that has not been applied (R78, R215): its WRITING slot, or its reservation that still waits.
An ACQUIRE that is stopped on its way leaves no pin; a RELEASE releases its pin (R165). -/
def State.stopPublish (s : State) (o : Op) : State :=
  let rid := if o.opcode = 0x42 then ((s.pb.range? o.part o.entry).map (·.regionId)).getD 0 else o.rgn
  match s.pb.region? rid with
  | none => s
  | some g =>
    -- what it has asked of this module as the home and has not been taken yet is not taken any more
    let s := s.modRegion g.rid (fun r => { r with inq := r.inq.filter (fun q => q.asker != .op o.id) })
    if o.opcode = 0x42 then
      -- its pin is released (Table 7-3), at the home too when it was not told yet
      if !o.checked then s
      else
        let s := (s.dropLocal o.part g.rid).modPart o.part (fun x => { x with pins := x.pins.filter (fun a => a.rid != g.rid) })
        if o.stage ≠ 0 then s
        else if s.isHome g then s.homeTake g ⟨.op o.id, s.pb.moduleId, o.id, o.part, .release⟩
        else
          let x := s.newAcc { id := 0, who := .fire, rid := g.rid }
          x.2.remoteSend (s.homeOf g) x.1 o.part (fun tag => .release g.rid tag g.digest o.part)
    else if o.stage = 0 then s
    else if o.opcode = 0x41 then
      let s := s.modPart o.part (fun x => { x with pins := x.pins.filter (fun a => a.rid != g.rid) })
      if s.isHome g then
        let u := (s.region g.rid).unpin g.nslots s.pb.moduleId o.part
        (s.modRegion g.rid (fun _ => u.1)).homeSettle g u.2.1 none 0 0 u.2.2
      else
        let x := s.newAcc { id := 0, who := .fire, rid := g.rid }
        x.2.remoteSend (s.homeOf g) x.1 o.part (fun tag => .release g.rid tag g.digest o.part)
    else if !o.publishes then s
    else if s.isHome g then
      match (List.range g.nslots).find? (fun k => ((s.region g.rid).vs k).writer == some (s.pb.moduleId, o.id, o.part)) with
      | some k => s.homeTake g ⟨.op o.id, s.pb.moduleId, o.id, o.part, .abandon k⟩
      | none => s.modRegion g.rid (fun r => { r with waitq := r.waitq.filter (fun w => !(w.module == s.pb.moduleId && w.rtag == o.id)) })
    else if 2 ≤ o.stage ∧ o.stage ≤ 4 then
      let x := s.newAcc { id := 0, who := .fire, rid := g.rid }
      x.2.remoteSend (s.homeOf g) x.1 o.part (fun tag => .abandon g.rid tag g.digest o.part o.rgnSlot)
    else s

/-- Ends what an operation that is stopped has under way outside its slot. `reason` is the REASON of REDUCE_ABORT. -/
def State.stopWork (s : State) (o : Op) (reason : Nat) : State :=
  let s := (s.stopSeal o.id).stopPublish o
  let s := { s with cav := { s.cav with landing := s.cav.landing.filter (fun (a : CvnAcc) => match a.who with
    | .place i _ _ _ => i != o.id
    | _ => true) } }
  let s := { s with cav := { s.cav with accs := s.cav.accs.map (fun (a : CvnAcc) => match a.who with
    | .opRd i _ | .opWr i | .fill i | .place i _ _ _ => if i = o.id then { a with who := .fire } else a
    | .op i => if i = o.id then { a with who := if o.stage = 1 && o.publishes then .abandon a.rid o.part else .fire } else a
    | .compl i => if i = o.id then { a with who := .fire } else a
    | .answerOp i _ _ _ => if i = o.id then { a with who := .mirror } else a
    | _ => a) } }
  (s.cav.redns.filter (fun r => r.op == some o.id)).foldl (fun s r =>
    let s : State := { s with cav := { s.cav with abortedRedns := s.cav.abortedRedns ++ [(r.group, r.rseq)] } }
    match s.pb.group? r.group with
    | some g => (s.toGroup g actColdon (.reduceAbort r.group reason r.rseq)).dropRedn r.group r.rseq
    | none => s.dropRedn r.group r.rseq) s

/-! ### Keys and erasure (R60, R320, R323, R324) -/

/-- A new key for a partition. -/
def State.newKey (s : State) (p : Nat) : State :=
  let k := s.drawXtsKey
  { k.2 with sec := { k.2.sec with partKey := tabSet s.sec.partKey p k.1, keyGen := tabMod 0 s.sec.keyGen p (satAdd 0xFFFF 1) } }

/-- The ranges of a partition that this module's deep tier backs. -/
def PromptBook.deepRanges (b : PromptBook) (p : Nat) : List PbRange := (b.rangesOf p).filter (fun r => r.regionId == 0 && r.kind != 2)

/-- Replaces a partition's key: its near-tier slabs go without write-back, its lines read as zero, and its sealed ranges become unsealed and
empty (R60, R78). `sweep`: the valid bits are cleared by the sweep of R324, whose record begins, or begins again, here. -/
def State.replaceKey (s : State) (p : Nat) (sweep : Bool) : State :=
  let rs := s.pb.deepRanges p
  let s := s.newKey p
  let s := s.dropBlks ((s.mem.tags.filter (fun t => t.part == p && !isLocal (4096 * t.blk))).map (·.blk))
  let s := rs.foldl (fun s r =>
    let s := s.clearValid r.maBase r.size
    let b := r.maBase / 4096
    let n := r.size / 4096
    { s with mem := { s.mem with
      staging := s.mem.staging.map (fun x => (x.1, x.2.filter (fun e => decide (e.1 < b) || decide (b + n ≤ e.1)))),
      cueArea := s.mem.cueArea.filter (fun (c : CueCopy) => decide (c.blk < b) || decide (b + n ≤ c.blk)) } }) s
  let s := (s.gol.sealedRanges.filter (fun x => x.part == p && rs.any (fun r => s.pb.range? p x.range == some r))).foldl
    (fun s x => s.unsealRange x.part x.range) s
  let s := if !sweep then s else { s with mem := { s.mem with
    erased := s.mem.erased.filter (fun e => e.part != p) ++
      (List.range 8).flatMap (fun q => rs.map (fun r => ({ pair := q, part := p, base := r.maBase, size := r.size, next := r.maBase / 131072, cleared := [] } : Erased))) } }
  -- recoveries of its blocks end with the blocks
  let s := { s with ras := { s.ras with recov := s.ras.recov.filter (fun (x : Recov) => !rs.any (fun r => decide (r.maBase ≤ 4096 * x.block) && decide (4096 * x.block < r.maBase + r.size))) } }
  s.settleTables

/-! ### Partition reset (R78) -/

/-- Zeroes the budget counters of a partition, its cues and its LDs in every class (R78). -/
def State.clearBudget (s : State) (p : Nat) : State :=
  let acts := [p, actCue p] ++ (s.pb.ldsOf p).map actLd
  let keep := fun (t : Tab Nat) => t.filter (fun e => !acts.contains (e.1 % 65536))
  { s with bud := { s.bud with
    use := keep s.bud.use, last := keep s.bud.last, total := keep s.bud.total, overWin := keep s.bud.overWin, unmet := keep s.bud.unmet,
    throttledWin := keep s.bud.throttledWin } }

/-- Takes down the loads and stores of a partition's LDs that have not reached a tag pipeline: reads end with all ones and poison, writes with Cmp (DEDUCED, log 85). -/
def State.endReqs (s : State) (p : Nat) : State :=
  (s.host.reqs.filter (fun r => r.part == p)).foldl (fun s r =>
    let s := s.dropReq r.id
    match r.op with
    | .rd => s.respond r.port r.ld r.tag onesLine true
    | .spec => s
    | _ => s.complete r.port r.ld r.tag) s

/-- Forgets the pages' hints of a partition and applies the defaults to its resident blocks (R78 step 4). -/
def State.defaultHints (s : State) (p : Nat) : State :=
  let rs := s.pb.rangesOf p
  let s := ((List.range rs.length).zip rs).foldl (fun s x => s.setHint x.2 x.1 0 x.2.size x.2.hint) s
  s.modPart p (fun x => { x with pageHint := [], hintReg := [], evicting := [], evictPlaced := [] })

/-- Releases the ACQUIRE pins of a partition (R78, R215). -/
def State.releasePins (s : State) (p : Nat) : State :=
  let pins := (s.part p).pins
  let s := pins.foldl (fun s x =>
    let s := s.dropLocal p x.rid
    match s.pb.region? x.rid with
    | none => s
    | some g =>
      if s.isHome g then
        let u := (s.region g.rid).unpin g.nslots s.pb.moduleId p
        (s.modRegion g.rid (fun _ => u.1)).homeSettle g u.2.1 none 0 0 u.2.2
      else
        let a := s.newAcc { id := 0, who := .fire, rid := g.rid }
        a.2.remoteSend (s.homeOf g) a.1 p (fun tag => .release g.rid tag g.digest p)) s
  (s.modPart p (fun x => { x with pins := [] })).settleTables

/-- Stops fetching from a ring: what is posted and not fetched is discarded; how many (R78 step 1). -/
def State.discardPosted (s : State) (r : Nat) : Nat × State :=
  let x := s.ring r
  let n := (x.sqTail + 65536 - x.sqHead) % 65536
  (n, s.modRing r (fun x => { x with
    st := if x.st = 3 then 3 else 4, sqHead := x.sqTail, total := x.total + n, lost := setFill x.lost x.total n, eligibleAt := none }))

def PromptBook.ringsOf (b : PromptBook) (p : Nat) : List Nat := (b.rings.filter (fun r => r.part == p)).map (·.ring)

/-- Steps 1 to 3 of a partition reset (R78). `newKey`: the key is replaced at its end; `sanitize`: by Sanitize; `mailbox`: by a mailbox command. -/
def State.startPartReset (s : State) (p : Nat) (newKey sanitize mailbox : Bool) : State :=
  match (s.part p).reset with
  | some j =>
    -- joins the reset in progress
    s.modPart p (fun x => { x with reset := some { j with newKey := j.newKey || newKey, sanitize := j.sanitize || sanitize, mailbox := j.mailbox || mailbox } })
  | none =>
    -- a Sanitize or Secure Erase whose key is replaced already: the reset joins it and is counted in the callboard (R80)
    if (s.part p).st = 3 then s.logEv .partReset p 0 0 0
    else
    let s := s.modPart p (fun x => { x with st := 1 })
    let d := (s.pb.ringsOf p).foldl (fun (acc : Nat × State) r => let y := acc.2.discardPosted r; (acc.1 + y.1, y.2)) (0, s)
    let before := ((d.2.part p).orphanPois, (d.2.part p).orphanStale)
    let s := (s.pb.ldsOf p).foldl (fun s i => s.declareDead i) d.2
    let orphans := (s.part p).orphanPois + (s.part p).orphanStale - (before.1 + before.2)
    let s := s.endReqs p
    let ops := (s.opsOf p).filter (fun o => o.phase != .ended)
    let s := ops.foldl (fun s o => (s.stopWork o 1).endOp o.id stAborted dtPartReset 0) s
    let s := (s.dropSheet p false).releasePins p
    let s := s.modPart p (fun x => { x with
      aborts := x.aborts + d.1 + ops.length,
      reset := some { newKey := newKey, sanitize := sanitize, mailbox := mailbox, aborted := ops.length, discarded := d.1, orphans := orphans } })
    s.pumpSnp.pumpReqs

/-- Step 4, after the last completion, and steps 5 and 6 of a partition reset, once its operations have completed (R78). -/
def State.endPartReset (s : State) (p : Nat) (j : ResetJob) : State :=
  let s := (s.clearBudget p).defaultHints p
  let s := s.modPart p (fun x => { x with st := 2 })
  let s := if j.newKey then s.replaceKey p (!j.sanitize) else s
  let s := (s.pb.ringsOf p).foldl (fun s r => s.modRing r (fun x => { x with st := if x.st = 3 then 3 else 0, error := 0 })) s
  let s := s.modPart p (fun x => { x with st := if j.mailbox then 3 else 0, resetCount := satAdd 0xFFFF x.resetCount 1, reset := none })
  let s := s.logEv .partReset p 0 j.aborted (j.orphans * 2 ^ 32 + j.discarded)
  if j.mailbox then s else s.vector0 p .partReset

end Sys2Proof.Machine
end

