-- ==== Sys2Proof/Machine/Startup.lean ====
section
/-! DEFINITION. Power-up, module reset, safe mode, applying a prompt book, trips, the module-level reset pin and standby power
(R306, R307, R310, R313 to R317, R320, R323, R327, R332 to R337, R340, R347, R349, R352 to R355, R375, R378, Tables 3-21, 16-15, 16-18). -/

namespace Sys2Proof.Machine

/-! ### The module state sensor (R345) -/

/-- Value of the module state sensor. -/
def Phase.sensor : Phase → Nat
  | .up => 1
  | .safe => 2
  | .reloading => 3
  | .tripped => 4
  | .recovery => 5
  | _ => 0

/-- Sends a PlatformEventMessage to the receiver that SetEventReceiver has set (R345). -/
def State.pldm (s : State) (sensor value : Nat) (data : List Nat := []) : State :=
  match s.mgmt.eventEid with
  | some e => s.emit (.pldmEvent e sensor value data)
  | none => s

/-- The module enters a phase; a change of the module state sensor is reported, with the event data `data` (R345). -/
def State.setPhase (s : State) (p : Phase) (data : List Nat := []) : State :=
  let old := s.mgmt.phase
  let s := { s with mgmt := { s.mgmt with phase := p } }
  if p.sensor = old.sensor ∨ p.sensor = 0 then s else s.pldm 0x0500 p.sensor data

/-! ### Firmware slots (R316, R317, R352, R354) -/

/-- SVN of an image; the factory image's is 0 (R316, R379). -/
def imageSvn (img : Bytes) : Nat := if img == factoryFw then 0 else Config.fwSvn img % 129

/-- The owner hash of the bank in use (R314). -/
def State.ownerHash (s : State) : Bytes := tabGet [] s.sec.hashes s.sec.bank

/-- A firmware image verifies: Eofaner's signature, the owner's while COSIGN is set, and an SVN of at least FW_SVN (R316, R317). -/
def State.fwOk (s : State) (img : Bytes) : Bool :=
  (img == factoryFw || Config.fwSigned img) && (!s.sec.cosign || Config.fwCosigned s.ownerHash img) && decide (s.sec.fwSvn ≤ imageSvn img)

/-- The slot the boot ROM boots next (R352) (DEDUCED, log 72). -/
def State.bootCandidate (s : State) : Option Nat :=
  match [0, 1].find? (fun n => (s.nor n).fwSt == .trial && decide ((s.nor n).tries < 3)) with
  | some n => some n
  | none =>
    let a := (s.nor 0).fwSt == .active
    let b := (s.nor 1).fwSt == .active
    if a && b then (if (s.nor 0).commitSeq < (s.nor 1).commitSeq then some 1 else some 0)
    else if a then some 0 else if b then some 1 else none

/-- Marks a slot INVALID; the failure is recorded as FW_FALLBACK once the callboard runs (R352, R354). -/
def State.failSlot (s : State) (n : Nat) : State :=
  let s := { s with mgmt := { s.mgmt with fallbacks := s.mgmt.fallbacks ++ [(n, (s.nor n).svn)] } }
  s.modNor n (fun x => { x with fwSt := .invalid })

/-- The boot ROM chooses a slot: a trial boot takes TRIES up by one, and a slot that does not verify, or whose TRIES reach 3, is INVALID and passes
the boot on (R352, R354). At most four candidates can fail. None: recovery. -/
def State.bootRom : Nat → State → Option Nat × State
  | 0, s => (none, s)
  | k + 1, s =>
    match s.bootCandidate with
    | none => (none, s)
    | some n =>
      let trial := (s.nor n).fwSt == .trial
      let s := if trial then s.modNor n (fun x => { x with tries := x.tries + 1 }) else s
      if !s.fwOk (s.nor n).fw || (trial && decide (3 ≤ (s.nor n).tries)) then State.bootRom k (s.failSlot n)
      else (some n, { s with mgmt := { s.mgmt with slot := n, trial := trial } })

/-! ### The callboard at step 3 (R347, R349) -/

/-- The mirror that is ahead of the other (R349). -/
def aheadMirror (a b : List LogEnt) : List LogEnt :=
  match a.getLast?, b.getLast? with
  | some x, some y => if (y.seq + 2 ^ 32 - x.seq) % 2 ^ 32 < 2 ^ 31 then b else a
  | none, some _ => b
  | _, none => a

/-- Where a mirror goes on: after its own last entry, or at the oldest restored. -/
def mirrorFrom (m : List LogEnt) (oldest : Nat) : Nat :=
  match m.getLast? with
  | some x => (x.seq + 1) % 2 ^ 32
  | none => oldest

/-- Restores the newest 2,048 entries found in either mirror; SEQ goes on from the last one (R347, R349). -/
def State.restoreLog (s : State) : State :=
  let a := (s.nor 0).mirror
  let b := (s.nor 1).mirror
  let m := aheadMirror a b
  let l := m.drop (m.length - 2048)
  let next := match l.getLast? with
    | some x => (x.seq + 1) % 2 ^ 32
    | none => 0
  let old := (next + 2 ^ 32 - l.length) % 2 ^ 32
  { s with mgmt := { s.mgmt with
    log := l, logNext := next, logOldest := old, logBase := old, bmk := [], mirrorNext := (mirrorFrom a old, mirrorFrom b old) } }

/-! ### The data plane without power (R3, R80, R306, R375) -/

/-- Every data-plane rail is off: all data-plane state is gone, with every session, link, key and memory contents. The levels at the pins stay. -/
def State.dataOff (s : State) : State :=
  { s with
    clk := { mgmt := s.clk.mgmt }
    host := { ports := s.host.ports.map (fun x => (x.1, ({ perstLow := x.2.perstLow } : Port))) }
    parts := [], disp := {}, mem := {}, gol := {}, cav := {}
    cld := { ports := s.cld.ports.map (fun x => (x.1, ({ prsntHigh := x.2.prsntHigh } : CPort))) }
    bud := {}, dram := {}, ras := {}, wq := {}
    sec := { s.sec with keysLive := false, partKey := [], metaKey := [], cavKey := [] }
    mgmt := { s.mgmt with dataRails := false, rwlLocked := false, pb := {}, pbImage := [], reload := none, upAt := none, fromSafe := false } }

/-- Closes every Coldon session with a reason (R232, R326). -/
def State.closeAll (s : State) (reason : Nat) : State :=
  s.cld.sessions.foldl (fun s x => s.closeSession x.peer reason) s

/-! ### Safe mode (R333, R337) -/

/-- PB_INVALID with the rule's code, the section TYPE and the entry (R333). -/
def State.logPbFail (s : State) (f : Option PbFail) : State :=
  match f with
  | some f => s.logEv .pbInvalid 0xFF 0 f.code (f.typ * 2 ^ 32 + f.idx)
  | none => s

/-- Enters safe mode: the hub die runs, the compute dies and the DRAM do not (R337) (DEDUCED, log 78). -/
def State.enterSafe (s : State) (reason : Nat) (f : Option PbFail) : State :=
  let s := s.dataOff
  let s := { s with clk := { s.clk with running := true }, mgmt := { s.mgmt with safeReason := reason } }
  -- the event data: the reason of Table 16-16, and of PB_INVALID the rule code, section TYPE and entry (R333, R345)
  ((s.setPhase .safe (reason :: (match f with | some f => [f.code, f.typ, f.idx] | none => []))).logPbFail f).logEv .safeMode 0xFF reason 0 0

/-! ### Boot (R327, R332, R334, R352, Table 16-15 steps 1 to 7) -/

/-- The checks of R332 on the prompt book of a slot. -/
def State.checkSlot (s : State) (n : Nat) : PbCheck :=
  checkBook s.sec.claimed s.ownerHash s.sec.pbSvn s.variant s.deepUser s.pb (s.gol.sealedRanges.map (fun r => (r.part, r.range))) (s.nor n).pb

/-- A reason that R327 does not answer with the other slot's prompt book: steps 6 and 7. -/
def noOtherSlot (reason : Nat) : Bool := reason == 5 || reason == 6

/-- Steps 5 to 7: the prompt book is checked, with the other slot's as R327 says; the data-plane rails come up, or safe mode begins. -/
def State.startBook (s : State) : State :=
  let go := fun (s : State) (n : Nat) (b : PromptBook) =>
    ({ s with
      clk := { s.clk with running := true }
      mgmt := { s.mgmt with dataRails := true, reload := some (n, (s.nor n).pb, b, true, true) } } : State)
  let n := s.mgmt.slot
  match s.checkSlot n with
  | .good b => go s n b
  | .bad r f =>
    if noOtherSlot r then s.enterSafe r f
    else match s.checkSlot (1 - n) with
      | .good b => go (s.logEv .pbFallback 0xFF (1 - n) 0 0) (1 - n) b
      | .bad _ _ => s.enterSafe r f

/-- Steps 1 to 7 from the boot ROM on, after a slot is chosen. -/
def State.bootFrom (s : State) : State :=
  let s := ({ s with mgmt := { s.mgmt with resetLow := false } }.setPhase .booting).restoreLog
  let s := s.logEv .moduleReset 0xFF s.mgmt.resetCause 0 0
  let s := s.mgmt.fallbacks.foldl (fun s x => s.logEv .fwFallback 0xFF x.1 x.2 0) s
  let s := { s with mgmt := { s.mgmt with fallbacks := [] } }
  if s.pwr.tripped then s.setPhase .tripped else s.startBook

/-- The boot ROM: a slot boots, or the module enters recovery (R352, R355). -/
def State.bootSlots (s : State) : State :=
  match s.bootRom 5 with
  | (some _, s) => s.bootFrom
  | (none, s) => s.setPhase .recovery

/-- A module reset with a cause (Table 17-4): everything of the data plane is cleared, the counters start at 0, and Table 16-15 runs from step 1.
A transfer in progress ends with its slot INVALID (R353). The receiver that SetEventReceiver has set stays, and learns of the reset by the module
state sensor (Table 3-21) (DEDUCED, log 71). -/
def State.boot (s : State) (cause : Nat) : State :=
  let s := s.dataOff
  let s := match s.mgmt.xfer with
    | some x => s.modNor x.2 (fun y => { y with fwSt := .invalid })
    | none => s
  let keep := s.pwr
  let s := { s with
    clk := {}
    pwr := { factor := (s.nor 0).f, tripped := keep.tripped, tripSensor := keep.tripSensor, sensors := keep.sensors }
    sec := { s.sec with keyGen := [], mctp := [] }
    mgmt := { s.mgmt with
      resetCause := cause, xfer := none, safeReason := 0, timeOffset := 0, timeKnown := false, rateCnt := [], rateSec := [], wdFires := 0, trial := false,
      phase := .booting } }
  s.bootSlots

/-! ### Applying a prompt book (R336, R340, Table 16-18) -/

/-- The configuration registers that a prompt book sets (R336). -/
def State.applyFields (s : State) (b : PromptBook) : State :=
  let d := fun (c : DCtl) => { c with
    panicCap := bits b.dctlCfg 39 32, rdOffender := bits b.dctlCfg 31 24, rdMit := bits b.dctlCfg 23 12, panicLow := bits b.dctlCfg 7 4,
    retrainLog2 := bits b.dctlCfg 3 0 }
  let n := fun (c : DCtl) => { c with
    panicCap := bits b.nctlCfg 39 32, rdMit := bits b.nctlCfg 23 12, panicLow := bits b.nctlCfg 7 4, retrainLog2 := bits b.nctlCfg 3 0 }
  let s := (List.range 8).foldl (fun s p => s.modCtl (.deep p) d) s
  let s := (List.range 16).foldl (fun s k => s.modCtl (.near k) n) s
  { s with
    ras := { s.ras with
      poisonOnly := bit b.rasCfg 40, markThresh := bits b.rasCfg 39 32, holdLimit := bits b.rasCfg 25 16, scrubNearH := bits b.rasCfg 15 8,
      scrubDeepH := bits b.rasCfg 7 0 }
    pwr := { s.pwr with
      peak := b.peakW, sustained := b.sustainedW, dieA := b.dieAW, dieB := b.dieBW, hub := b.hubW, deferLimit := b.deferLimit }
    sec := { s.sec with pbSvn := max s.sec.pbSvn b.svn }
    mgmt := { s.mgmt with pb := b, rwlLocked := true } }

/-- Partitions, rings, budgets, hints, access counters, cue sheets and staged work as they are at first use (Table 16-18), with s at 1 in every class (R254). -/
def State.firstUse (s : State) : State :=
  let b := s.pb
  let s := { s with
    parts := b.partitions.foldl (fun (t : Tab Part) (p : PbPart) => tabSet t p.num ({ st := 0 } : Part)) []
    disp := { winFrom := s.clk.hmesh + 1 }
    mem := { s.mem with rdCnt := [], wrCnt := [], staging := [], cueArea := [], cueTurn := 63 } }
  s.beginBudgets

/-- What failed training is missing from the capacity, which derates at step 12 (R335); ports train and lock with step 13. -/
def State.derateAtStart (s : State) : State :=
  let s := s.derate [0, 1, 2, 3]
  [0, 1, 2, 3].foldl (fun s c => s.beginWindows c (List.range (pointsOf c))) s

/-- This module takes up its units of regions that come into service here. Of one it has not been a member of before, its lines read as zero (R209); those of the others are
stale until it rejoins (R220, Table 16-18) (DEDUCED, log 24). -/
def State.takeUnits (s : State) (gs : List PbRegion) : State :=
  (gs.filter (fun g => (s.memberIdx g).isSome)).foldl (fun s g =>
    if s.mgmt.joined.contains g.digest then s.modRegion g.rid (fun r => { r with unitsStale := true })
    else
      let a := s.shareBase + g.stripeBase
      let b := a + g.nslots * g.per
      let s := s.clearValid a (g.nslots * g.per)
      { s with
        mem := { s.mem with bmap := s.mem.bmap.filter (fun e => decide (e.1 < a / 4096) || decide (b / 4096 ≤ e.1)) }
        mgmt := { s.mgmt with joined := s.mgmt.joined ++ [g.digest] } }) s

/-- New keys for every partition of the prompt book in force (R320, R323). -/
def State.newKeys (s : State) : State :=
  let s := s.pb.partitions.foldl (fun s (p : PbPart) =>
    let k := s.drawXtsKey
    { k.2 with sec := { k.2.sec with partKey := tabSet k.2.sec.partKey p.num k.1 } }) s
  let m := s.drawXtsKey
  let c := m.2.drawXtsKey
  { c.2 with sec := { c.2.sec with keysLive := true, metaKey := m.1, cavKey := c.1 } }

/-- TRAINING_COMPLETE: steps 8 to 14. A deep-tier channel that failed puts the module into safe mode; other failed units stay out of service (R335). -/
def execTrainingComplete (failed : List UnitId) (s : State) : Out :=
  match s.mgmt.phase, s.mgmt.reload with
  | .booting, some (n, img, b, _, _) =>
    if failed.any (fun u => match u with | .deepCtl _ | .hub => true | _ => false) then .next (s.enterSafe 7 none)
    else
      let fromSafe := s.mgmt.fromSafe
      let s := { s with
        ras := { s.ras with failed := failed }
        mgmt := { s.mgmt with pbImage := img, reload := none, fromSafe := false, safeReason := 0 } }
      let s := (((s.applyFields b).newKeys.firstUse.derateAtStart).takeUnits b.regions).setPhase .up
      let s := { s with mgmt := { s.mgmt with upAt := some s.clk.mgmt } }
      let s := if fromSafe then (s.vector0All .reloadEnd).logEv .reload 0xFF n 1 0 else s
      let s := if s.mgmt.recovering then (s.logEv .recoveryUsed 0xFF s.mgmt.slot (s.nor s.mgmt.slot).svn 0) else s
      let s := { s with mgmt := { s.mgmt with recovering := false } }
      .next (s.logEv .moduleUp 0xFF 0 0 0)
  | _, _ => .next s

/-- POWER_UP: the input rises above 40 V and the standby rail comes up; the address strap is sampled (R334, R374, R378). A restart from a trip by a power
cycle clears TRIPPED (R306). -/
def execPowerUp (modAddr : Nat) (s : State) : Out :=
  if s.mgmt.standby then .next s
  else
    let s := { s with pwr := { s.pwr with tripped := false, tripSensor := 0 }, mgmt := { s.mgmt with standby := true, modAddr := modAddr % 16 } }
    .next (if s.mgmt.resetLow then s.setPhase .held else s.boot 0)

/-- The trial slot that runs is given up: INVALID, and the module resets into the other (R354). The reset's cause is the model's choice (DESIGN CHOICE, log 29) (DEDUCED, log 73). -/
def State.dropTrial (s : State) : State := ((s.closeAll 1).failSlot s.mgmt.slot).boot 4

/-- START_TIMEOUT: 30 s after step 1 step 14 has not been reached (R334); a trial boot falls back (R354). -/
def execStartTimeout (s : State) : Out :=
  if s.mgmt.phase ≠ .booting || s.mgmt.fromSafe || decide (s.clk.mgmt < 30 * mgmtHz) then .next s
  else if s.mgmt.trial then .next s.dropTrial
  else .next (s.enterSafe 8 none)

/-! ### The module-level reset pin and standby power (R375, R378) -/

/-- MOD_RESET_N_ASSERT: a low level of 2 µs or more drops the data-plane rails and holds the management processor; a shorter pulse is ignored. -/
def execModResetNAssert (widthNs : Nat) (s : State) : Out :=
  if widthNs < 2000 || s.mgmt.resetLow then .next s
  else
    let s := if s.mgmt.standby then (s.closeAll 1).dataOff else s
    let s := { s with mgmt := { s.mgmt with resetLow := true } }
    .next (if s.mgmt.standby then { s with mgmt := { s.mgmt with phase := .held } } else s)

/-- MOD_RESET_N_RELEASE: Table 16-15 runs from step 1, and MODULE_RESET is recorded with cause 1; while TRIPPED only steps 1 to 3 run (R375). -/
def execModResetNRelease (s : State) : Out :=
  if !s.mgmt.resetLow then .next s
  else
    let s := { s with mgmt := { s.mgmt with resetLow := false } }
    .next (if s.mgmt.standby then s.boot 1 else s)

/-- STANDBY_LOSS: the input falls below 28 V; the standby rail drops, and what SRAM held is lost (R325, R326, R349, R378). -/
def execStandbyLoss (s : State) : Out :=
  if !s.mgmt.standby then .next s
  else
    let s := s.dataOff
    .next { s with
      clk := {}
      pwr := { factor := (s.nor 0).f }
      sec := { s.sec with dbgData := false, dbgMgmt := false, dbgUart := false, nonce := none, keyGen := [], mctp := [] }
      mgmt := { s.mgmt with
        phase := .off, standby := false, log := [], logNext := 0, logOldest := 0, logBase := 0, bmk := [], mirrorNext := (0, 0), timeOffset := 0,
        timeKnown := false, rateCnt := [], rateSec := [], eventEid := none, wdFires := 0, gpio := 0, safeReason := 0 } }

/-! ### Trips (R306, R307) -/

/-- The data-plane rails drop and the module waits for a restart; the record is kept in both NOR devices. -/
def State.trip (s : State) (e : Ev) (sensor unit value : Nat) (reading : Int) : State :=
  let s := s.dataOff
  let s := { s with pwr := { s.pwr with tripped := true, tripSensor := sensor } }
  let s := [0, 1].foldl (fun s n => s.modNor n (fun x => { x with trips := x.trips ++ [(sensor, reading)] })) s
  (s.setPhase .tripped).logEv e 0xFF unit 0 value

/-- The data-plane rails, or the hub die's, are up. -/
def State.railsUp (s : State) : Bool := s.mgmt.dataRails || s.mgmt.phase == .safe

/-- THERMAL_TRIP: a sensor reaches 115 °C (R306). -/
def execThermalTrip (sensor : Nat) (reading : Int) (s : State) : Out :=
  if !s.railsUp || decide (reading < 115 * 16) || decide (96 ≤ sensor) then .next s
  else .next (s.trip .thermalTrip sensor sensor (reading % 2 ^ 64).toNat reading)

/-- SUPPLY_TRIP: the input voltage has stayed below 36 V for 100 µs (R307); TRIP_SENSOR reads 0x7F (Table 14-12). -/
def execSupplyTrip (s : State) : Out :=
  if !s.railsUp then .next s else .next (s.trip .supplyTrip 0x7F 0x7F 0 0)

end Sys2Proof.Machine
end

