-- ==== Sys2Proof/Machine/OpMem.lean ====
section
/-! DEFINITION. How staged operations reach memory: what they wait for, the values they read, and their writes (R24, R49, R83, R105, R128, R157, R162 to R164, R287). -/

namespace Sys2Proof.Machine

/-! ### Orders the module does not fix (R154) -/

def insertKey {β : Type} (x : Nat × β) : List (Nat × β) → List (Nat × β)
  | [] => [x]
  | y :: t => if x.1 < y.1 then x :: y :: t else y :: insertKey x t

/-- The terms of an element in the order of a run, each with its key (DESIGN CHOICE, log 16). -/
def inOrder {β : Type} (run elem : Nat) (l : List β) : List (Nat × β) :=
  (((List.range l.length).zip l).map (fun x => ((Config.orderKey run elem x.1).toNat, x.2))).foldl (fun acc x => insertKey x acc) []

/-- Draws the number of a run. -/
def State.newRun (s : State) : Nat × State := (s.free, { s with free := s.free + 1 })

/-! ### Lines of an operand -/

/-- Lines of a span, counted from the start of its range-list entry. -/
def spanLines (off len : Nat) : List Nat :=
  if len = 0 then [] else (List.range ((off + len - 1) / 64 - off / 64 + 1)).map (off / 64 + ·)

/-- Blocks of a span, counted from the start of its range-list entry. -/
def spanBlks (off len : Nat) : List Nat :=
  if len = 0 then [] else (List.range ((off + len - 1) / 4096 - off / 4096 + 1)).map (off / 4096 + ·)

/-- Line number at this module's tag pipelines of a line of an entry. -/
def Opd.line (x : Opd) (l : Nat) : Nat := x.rng.addr x.idx (64 * l) / 64

def Opd.blk (x : Opd) (b : Nat) : Nat := x.rng.addr x.idx (4096 * b) / 4096

/-- A span of an operand: the operand, an offset in its entry, a length. -/
abbrev Span3 := Opd × Nat × Nat

/-! ### Waiting -/

/-- A block in the cue area of a cluster that works on it, as plain bytes with its poisoned lines; the spec does not say which cluster works on a block: the one
that holds a copy of it (R101; DESIGN CHOICE, log 107). -/
def State.copyOf (s : State) (blk : Nat) : Option (Except Damage Bytes × NSet) :=
  s.mem.cueArea.findSome? (fun c => if c.blk != blk then none else c.held.map (fun h =>
    (match s.ent? blk with
      | none => .ok h.1
      | some e =>
        let e := if e.mode = modeLegacy then { e with mode := modeRaw } else e
        expandForm e (s.tableFor blk e) h.1, h.2)))

/-- A block is ready for an operation: no cue fill of it is outstanding (R105), and no recovery holds it (R128, R287). -/
def State.blkReady (s : State) (id p blk : Nat) : Bool × State :=
  match s.op? id with
  | none => (false, s)
  | some o =>
    match s.cueWaits p blk with
    | some late => (false, s.modOp id (fun o => { o with
        waitSince := some (o.waitSince.getD s.clk.hmesh), waitBlks := setAdd o.waitBlks blk, late := o.late || late }))
    | none =>
      let copy := s.copyOf blk
      if setHas o.given blk || (isLocal (4096 * blk) && (s.nearFind blk).isNone && copy.isNone) then (true, s)
      else
        let s := if s.ras.recov.any (fun r => r.block == blk) || (s.ent? blk).isNone || (tabFind s.ras.gone blk).isSome then s
          else match (match copy with | some c => c.1 | none => s.plainBlock blk) with
            | .ok _ => s
            | .error d => s.damageBlk blk d ((s.nearFind blk).isSome || copy.isSome)
        if s.ras.recov.any (fun r => r.block == blk) then
          (false, s.modOp id (fun o => match o.held with
            | some h => if h.1 = blk then o else { o with held := some (blk, s.clk.hmesh) }
            | none => { o with held := some (blk, s.clk.hmesh) }))
        else (true, s)

/-- A line is at hand for an operation; a line of the cavern is asked for once (R206), and holders of a line of an HDM-DB range are snooped (R49). -/
def State.lineReady (s : State) (id : Nat) (x : Opd) (k : Snoops) (l : Nat) : Bool × State :=
  let line := x.line l
  if x.rng.regionId = 0 then (if x.rng.kind = 1 then s.snoop line none k else (false, s)) |> fun r => (!r.1, r.2)
  else match s.op? id with
    | none => (false, s)
    | some o =>
      if (s.nearFind (line / 64)).isSome || (s.copyOf (line / 64)).isSome || (tabFind o.got line).isSome then (true, s)
      else if setHas o.asked line then (false, s)
      else
        let s := s.modOp id (fun o => { o with asked := setAdd o.asked line })
        let s := s.cvn (.opRd id line) x.rng.regionId (s.regionSlot o.part x.rng) (64 * l) o.part (.rd 1 false false)
        (((s.op? id).map (fun o => (tabFind o.got line).isSome)).getD false, s)

/-- Lines of a destination that a write covers only in part, of an entry in the cavern: they are read before they are written whole (DEDUCED, log 26). -/
def partLines (w : Span3) : List Nat :=
  (spanLines w.2.1 w.2.2).filter (fun l => decide (64 * l < w.2.1) || decide (w.2.1 + w.2.2 < 64 * l + 64))

/-- What an operation reads from the deep tier is granted at its pairs (R246, R253, R271). -/
def State.opPairs (s : State) (id p : Nat) (rd : List Span3) : Bool × State :=
  let deep := rd.flatMap (fun x => if x.1.rng.regionId ≠ 0 then [] else (spanBlks x.2.1 x.2.2).filterMap (fun b =>
    let blk := x.1.blk b
    if (s.nearFind blk).isSome || (s.copyOf blk).isSome then none
    else
      let n := ((spanLines x.2.1 x.2.2).filter (fun l => l / 64 == b)).length
      some (blk, 64 * (match s.ent? blk with
        | some e => 4 * e.sectors
        | none => if s.hintAt x.1.rng x.1.idx (4096 * b) ≤ 1 then 64 else n))))
  s.opGrant id p (deep.map (·.1)) (deep.foldl (fun t x => tabInc t (pairOfBlk x.1) x.2) [])

/-- Every block and line that an operation reads or writes is ready for it; what is not is asked for. -/
def State.opReady (s : State) (id p : Nat) (rd wr : List Span3) : Bool × State :=
  let blks := ((rd.flatMap (fun x => (spanBlks x.2.1 x.2.2).map x.1.blk)).eraseDups)
  let r := blks.foldl (fun (acc : Bool × State) b => let r := acc.2.blkReady id p b; (acc.1 && r.1, r.2)) (true, s)
  let r := rd.foldl (fun (acc : Bool × State) x =>
    (spanLines x.2.1 x.2.2).foldl (fun (acc : Bool × State) l => let r := acc.2.lineReady id x.1 .data l; (acc.1 && r.1, r.2)) acc) r
  let r := wr.foldl (fun (acc : Bool × State) x =>
    if x.1.rng.regionId = 0 then
      (if x.1.rng.kind = 1 then
        (let q := acc.2.snoopSpan (x.1.line (x.2.1 / 64)) (spanLines x.2.1 x.2.2).length .inv; (acc.1 && !q.1, q.2)) else acc)
    else (partLines x).foldl (fun (acc : Bool × State) l => let r := acc.2.lineReady id x.1 .data l; (acc.1 && r.1, r.2)) acc) r
  let r := if r.1 then r.2.opPairs id p rd else r
  if r.1 then (true, r.2.modOp id (fun o => { o with held := none })) else r

/-! ### Values -/

/-- A line as an operation reads it: expanded when its range is sealed, poisoned when its block is given up (R128) (DESIGN CHOICE, log 105). -/
def State.opLine (s : State) (o : Op) (x : Opd) (l : Nat) : Bytes × Bool :=
  let line := x.line l
  let blk := line / 64
  match s.copyOf blk with
  | some (.ok bs, marks) => (slice bs (64 * (line % 64)) 64, setHas marks line || setHas o.given blk)
  | some (.error _, _) => (deadLine line, true)
  | none =>
  if x.rng.regionId ≠ 0 && (s.nearFind blk).isNone then (tabFind o.got line).getD (deadLine line, true)
  else if (s.ent? blk).isSome then
    (match s.plainBlock blk with
      | .ok bs => (slice bs (64 * (line % 64)) 64, setHas (s.poisonOf blk) line || setHas o.given blk)
      | .error _ => (deadLine line, true))
  else let v := s.lineAt line; (v.1, v.2 || setHas o.given blk)

/-- Bytes of a span. -/
def State.opBytes (s : State) (o : Op) (x : Opd) (off len : Nat) : Bytes :=
  slice ((spanLines off len).flatMap (fun l => (s.opLine o x l).1)) (off % 64) len

/-- A line of a span is poisoned. -/
def State.opBad (s : State) (o : Op) (x : Opd) (off len : Nat) : Bool := (spanLines off len).any (fun l => (s.opLine o x l).2)

/-- A block that an operation read failed check 2 of Table 5-8 and its recovery failed (R128). -/
def State.opStale (s : State) (rd : List Span3) : Bool :=
  rd.any (fun x => (spanBlks x.2.1 x.2.2).any (fun b => tabFind s.ras.gone (x.1.blk b) == some true))

/-- What the reads of a span leave: recency, a block allocated under its hint, charges and access counts (R85, R91, R134, Table 4-1). -/
def State.touchRd (s : State) (p : Nat) (r : Span3) : State :=
  (spanBlks r.2.1 r.2.2).foldl (fun s b =>
    let blk := r.1.blk b
    let ls := (spanLines r.2.1 r.2.2).filter (fun l => l / 64 == b)
    let n := ls.length
    let first := ls.head?.getD 0
    let ent := s.ent? blk
    -- a copy in a cue area is read without its tag pipeline (R101)
    if (s.copyOf blk).isSome then s.useTableOf blk
    else
    let s := (s.countRd (4096 * blk) n).useTableOf blk
    if (s.nearFind blk).isSome then
      (s.nearTouch blk (fun t => { t with hit := true })).useNear blk (match ent with | some _ => 0 | none => first % 64)
        (match ent with | some _ => 4 * sectorsAbove ent | none => n) p
    else if r.1.rng.regionId ≠ 0 then s
    else
      let s := if ent.any (fun e => e.mode == modeLegacy) then s.countLegacy else s
      let hint := s.hintAt r.1.rng r.1.idx (4096 * b)
      let fill := if hint = 0 ∨ hint = 1 then s.nearFill blk p .clean (hint == 1) false else none
      -- a block that is allocated is read whole
      let take := fun (s : State) => s.useDeep blk (if ent.isSome || fill.isSome then 0 else first % 64)
        (match ent with | some e => 4 * e.sectors | none => if fill.isSome then 64 else n) p
      if hint = 0 ∨ hint = 1 then
        (match fill with
          | some s => (take (s.nearTouch blk (fun t => { t with hit := true }))).useNear blk 0 (4 * sectorsAbove ent) p
          | none => take (s.noRoom blk p (hint == 1)))
      else take s) s

/-! ### Writes -/

/-- Bytes an operation writes: at an offset of an entry, with poison. Bytes of length 0 that are poisoned only mark their line. -/
structure Chunk where
  off : Nat
  data : Bytes
  bad : Bool
deriving DecidableEq, Repr

/-- Lines that some chunks touch, each once. -/
def chunkLines (cs : List Chunk) : List Nat :=
  (cs.flatMap (fun c => if c.data.isEmpty then (if c.bad then [c.off / 64] else []) else spanLines c.off c.data.length)).eraseDups

/-- What chunks write to a line: its bytes, which are written, and whether it is poisoned. -/
def chunkLine (cs : List Chunk) (l : Nat) : Bytes × List Bool × Bool :=
  let mine := cs.filter (fun c => decide (c.off < 64 * l + 64) && (decide (64 * l < c.off + c.data.length) || (c.data.isEmpty && decide (64 * l ≤ c.off))))
  let at? := fun (i : Nat) => mine.findSome? (fun c => if c.off ≤ 64 * l + i then c.data[64 * l + i - c.off]? else none)
  ((List.range 64).map (fun i => (at? i).getD 0), (List.range 64).map (fun i => (at? i).isSome), mine.any (·.bad))

/-- Writes one line of an operation at its tag pipeline, or sends it to the cavern (R163, R207). -/
def State.opPut (s : State) (id p : Nat) (x : Opd) (l : Nat) (v : Bytes × List Bool × Bool) : State :=
  let line := x.line l
  let full := v.2.1.all (fun b => b)
  if x.rng.regionId = 0 then
    let was := (s.lineAt line).2
    let hint := s.hintAt x.rng x.idx (64 * l)
    let op : MergeOp := if full then .full v.1 v.2.2 else .part v.1 v.2.1 v.2.2
    let s := s.storeLine p hint line op p
    let s := { s with
      mem := { s.mem with poisonSrc := if v.2.2 then tabSet s.mem.poisonSrc line 0 else if full then tabDel s.mem.poisonSrc line else s.mem.poisonSrc }
      ras := { s.ras with poisoned := s.ras.poisoned + b2n (v.2.2 && !was) } }
    s.countWr (64 * line) 1
  else
    match s.op? id with
    | none => s
    | some o =>
      let old := s.opLine o x l
      let data := if full then v.1 else mergeBytes old.1 v.1 v.2.1
      let bad := v.2.2 || (!full && old.2)
      -- a copy of the line near this module is dropped: its holder orders the write (R24)
      let s := (s.nearDel (line / 64)).dropCue (line / 64)
      (s.modOp id (fun o => { o with left := o.left + 1 })).cvn (.opWr id) x.rng.regionId 0 (64 * l) p (.wr data bad)

/-- Writes chunks of an operand, each line once. -/
def State.opStore (s : State) (id p : Nat) (x : Opd) (cs : List Chunk) : State :=
  (chunkLines cs).foldl (fun s l => s.opPut id p x l (chunkLine cs l)) s

/-! ### Ends -/

/-- A compute unit is out of service: work on the clusters ran on reduced resources (R18) (DEDUCED, log 103). -/
def State.computeReduced (s : State) : Bool :=
  decide (s.clusters < 64) || decide (s.matrixUnits < 256) || decide (s.vectorUnits < 64)

/-- The status that applies first (R164): a lost peer or another end of a cavern access, TABLE_STALE, POISONED, OUT_OF_BOUNDS, OK. -/
def Op.outcome (o : Op) (oob : Bool) : Nat × Nat :=
  if cvnRank o.cvnBad < 5 then cvnStatus o.cvnBad
  else if o.stale then (stTableStale, dtNone)
  else if o.poisoned then (stPoisoned, 28)
  else if o.cvnBad ≠ 0 then cvnStatus o.cvnBad
  else if oob then (stOutOfBounds, 27)
  else (stOk, dtNone)

/-- Ends an operation whose writes are done, or leaves it to wait for the acknowledgements of its cavern writes (R207). -/
def State.settleOp (s : State) (id : Nat) (oob : Bool) (result : Nat) : State :=
  match s.op? id with
  | none => s
  | some o =>
    if o.left = 0 then
      let e := o.outcome oob
      s.endOp id e.1 e.2 result
    else s.modOp id (fun o => { o with phase := .running, stage := 9, result := result, status := b2n oob })

/-- An operation that waited for acknowledgements ends once the last one is in. -/
def State.finishWrites (s : State) (o : Op) : State :=
  if o.left ≠ 0 then s
  else
    let e := o.outcome (o.status == 1)
    s.endOp o.id e.1 e.2 o.result

end Sys2Proof.Machine
end

