-- ==== Sys2Proof/Machine/OpCheck.lean ====
section
/-! DEFINITION. Descriptors of staged operations: field maps, and the checks of R160 in their order (R157 to R162, R166 to R181, Tables 7-3 to 7-18). -/

namespace Sys2Proof.Machine

/-! ### Opcodes (Table 3-17) -/

def opcodes : List Nat :=
  [0x00, 0x01, 0x02, 0x03, 0x10, 0x11, 0x18, 0x19, 0x20, 0x21, 0x22, 0x28, 0x30, 0x31, 0x38, 0x40, 0x41, 0x42, 0x48]

/-! ### Extension records and recipes (R159, R182) -/

/-- Address of the extension record. -/
def Op.extAddr (o : Op) : Option Nat :=
  if o.opcode = 0x20 ∨ o.opcode = 0x38 then some (o.fieldAt 40 8)
  else if o.opcode = 0x21 then some (o.fieldAt 24 8)
  else if o.opcode = 0x22 then some (o.fieldAt 48 8)
  else none

/-- A field of the extension record. -/
def Op.extAt (o : Op) (off n : Nat) : Nat := leAt o.ext off n

/-- The operation runs a recipe, and its image's address. -/
def Op.rcpAddr (o : Op) : Option Nat :=
  if o.opcode = 0x21 then some (o.fieldAt 16 8)
  else if o.opcode = 0x20 && bit o.flags 0 then some (o.extAt 16 8)
  else if o.opcode = 0x22 && bits o.flags 15 14 == 3 then some (o.extAt 48 8)
  else none

/-! ### GEMM (Tables 7-7, 7-8) -/

def Op.gX (o : Op) : Nat := bits o.flags 15 12
def Op.gW (o : Op) : Nat := bits o.flags 11 8
def Op.gO (o : Op) : Nat := bits o.flags 7 4
def Op.gM (o : Op) : Nat := o.fieldAt 48 4
def Op.gN (o : Op) : Nat := o.fieldAt 52 4
def Op.gK (o : Op) : Nat := o.fieldAt 56 4

/-- A stride, packed when 0. -/
def strideOf (v row : Nat) : Nat := if v = 0 then row else v

def Op.gXs (o : Op) : Nat := strideOf (o.extAt 48 4) (elemBytes o.gX o.gK)
def Op.gWs (o : Op) : Nat := strideOf (o.extAt 52 4) (elemBytes o.gW o.gK)
def Op.gOs (o : Op) : Nat := strideOf (o.extAt 56 4) (elemBytes o.gO o.gN)

/-- Format of the epilogue streams 1 and 2 (R169). -/
def Op.gS (o : Op) : Nat := if o.gO ≤ 2 then o.gO else 1

def Op.gSs (o : Op) : Nat := strideOf (o.extAt 56 4) (elemBytes o.gS o.gN)

/-- Extent of `rows` rows of `row` bytes at a stride (R157). -/
def rowsExtent (rows stride row : Nat) : Nat := (rows - 1) * stride + row

/-! ### SIMSEARCH (Tables 7-16, 7-17) -/

/-- Format code of FORMAT. -/
def simFmt (f : Nat) : Nat := if f = 0 then 5 else if f = 1 then 3 else if f = 2 then 4 else if f = 3 then 10 else 1

def Op.sF (o : Op) : Nat := simFmt (bits o.flags 15 13)
def Op.sN (o : Op) : Nat := o.fieldAt 48 4
def Op.sD (o : Op) : Nat := o.fieldAt 52 2 % 8192
def Op.sK (o : Op) : Nat := o.fieldAt 54 2 % 2048
def Op.sQ (o : Op) : Nat := o.fieldAt 56 2 % 512
def Op.sVec (o : Op) : Nat := elemBytes o.sF o.sD
def Op.sStride (o : Op) : Nat := strideOf (o.extAt 24 4) o.sVec

/-! ### The smaller operations -/

/-- OPTIM: format codes of W, G and the state (Table 7-11). -/
def Op.oW (o : Op) : Nat := bits o.flags 13 12
def Op.oG (o : Op) : Nat := bits o.flags 11 10
def Op.oS (o : Op) : Nat := bits o.flags 9 9
def Op.oN (o : Op) : Nat := o.fieldAt 56 4
def Op.oAlgo (o : Op) : Nat := bits o.flags 15 14
def Op.oMaster (o : Op) : Bool := bit o.flags 8
def Op.oReseal (o : Op) : Bool := bit o.flags 7

/-- Bytes of an index of GATHER and SCATTER_ADD. -/
def Op.iW (o : Op) : Nat := if bit o.flags 3 then 8 else 4

/-- FP32 or BF16 by one bit. -/
def fmt01 (b : Bool) : Nat := if b then 1 else 0

/-- Elements of DST of a REDUCE in a group of m (R173). -/
def Op.redDst (o : Op) (m : Nat) : Nat := if bit o.flags 11 then o.fieldAt 32 4 / max m 1 else o.fieldAt 32 4

/-- Groups of a SEAL over B blocks: D = min(T, B) (R119). -/
def Op.sealGroups (o : Op) (blocks : Nat) : Nat := min (o.fieldAt 17 1) blocks

/-- Slots still free in a partition's quota (R120). -/
def State.quotaLeft (s : State) (p : Nat) : Nat :=
  ((s.pb.tier? p).map (·.quota)).getD 0 - (s.gol.slots.filter (fun x => x.2.owner == p && !x.2.imp && !x.2.region && x.2.st != 0)).length

/-- Slots still free of those the module keeps for cavern regions (R120, R123). -/
def State.importLeft (s : State) : Nat :=
  ((s.pb.tier? 255).map (·.quota)).getD 0 - (s.gol.slots.filter (fun x => (x.2.imp || x.2.region) && x.2.st != 0)).length

/-- Slots that a SEAL needs and may take. -/
def State.slotsShort (s : State) (o : Op) (r : PbRange) : Bool :=
  !bit o.flags 3 && decide ((if r.regionId = 0 then s.quotaLeft o.part else s.importLeft) < o.sealGroups (r.size / 4096))

/-! ### Step 1: reserved fields and encodings -/

/-- Bytes of the descriptor from `off` up to its CRC are 0. -/
def Op.tailZero (o : Op) (off : Nat) : Bool := zeroAt o.desc off (60 - off)

/-- Step 1 of R160: whether a reserved field is set, and whether an encoding is reserved. -/
def Op.step1 (o : Op) : Bool × Bool :=
  let f := o.flags
  let c := o.opcode
  let rnd := fun (v : Nat) => v == 3
  if c = 0x00 then (f != 0 || !o.tailZero 16, false)
  else if c = 0x01 then (decide (2 ≤ f) || !o.tailZero 16, false)
  else if c = 0x02 ∨ c = 0x03 then (f != 0 || !o.tailZero 40, false)
  else if c = 0x10 then (decide (16 ≤ f) || !o.tailZero 19 || (bit f 3 && (o.fieldAt 17 2 != 0 || f % 4 != 0)), false)
  else if c = 0x11 then (f != 0 || !o.tailZero 17, false)
  else if c = 0x18 then (decide (16 ≤ f) || !o.tailZero 32, !bit f 3 && decide (4 ≤ f % 8))
  else if c = 0x19 then (f != 0 || !o.tailZero 28 || decide (8192 ≤ o.fieldAt 24 2), false)
  else if c = 0x20 then
    (false, !(decide (1 ≤ o.gX) && decide (o.gX ≤ 11) && decide (1 ≤ o.gW) && decide (o.gW ≤ 11) && decide (o.gO ≤ 5)) || rnd (bits f 3 2))
  else if c = 0x21 then (bit f 0 || decide (16 ≤ f) || !o.tailZero 52, rnd (bits f 3 2))
  else if c = 0x22 then (f % 16 != 0, rnd o.oW || rnd o.oG || rnd (bits f 6 5))
  else if c = 0x28 then
    (f % 128 != 0 || !o.tailZero 42 || decide (1024 ≤ o.fieldAt 40 2), rnd (bits f 15 14) || rnd (bits f 13 12) || decide (2 ≤ bits f 9 8))
  else if c = 0x30 then (f &&& 0xFFF3 != 0 || !o.tailZero 56, false)
  else if c = 0x31 then (decide (16 ≤ f) || !o.tailZero 56, false)
  else if c = 0x38 then
    (f % 1024 != 0 || !o.tailZero 58 || decide (8192 ≤ o.fieldAt 52 2) || decide (2048 ≤ o.fieldAt 54 2) || decide (512 ≤ o.fieldAt 56 2),
      decide (5 ≤ bits f 15 13) || bits f 12 11 == 3)
  else if c = 0x40 then (f != 0 || !o.tailZero 57, false)
  else if c = 0x41 then (f != 0 || !o.tailZero 33, false)
  else if c = 0x42 then (f != 0 || !o.tailZero 17, false)
  else (decide (4 ≤ f) || !o.tailZero 32, false)

/-- Reserved fields of the extension record (step 2). -/
def Op.extReserved (o : Op) : Bool :=
  if o.opcode = 0x21 ∨ o.opcode = 0x22 then !zeroAt o.ext 56 4
  else if o.opcode = 0x38 then !zeroAt o.ext 32 28
  else false

/-! ### Step 3: counts, dimensions, lengths, strides and alignments -/

/-- A value lies inLimits limits. -/
def inLimits (lo hi v : Nat) : Bool := decide (lo ≤ v) && decide (v ≤ hi)

/-- A stride is 0, or a multiple of 4 of at least a row. -/
def strideOk (v row : Nat) : Bool := v == 0 || (v % 4 == 0 && decide (row ≤ v))

/-- Step 3 of R160 passes. -/
def State.step3 (s : State) (o : Op) : Bool :=
  let c := o.opcode
  let rcpOk := match o.rcpAddr with
    | some a => a % 64 == 0
    | none => true
  if c = 0x02 then inLimits 1 (2 ^ 56 - 1) (o.fieldAt 32 8)
  else if c = 0x03 then inLimits 1 (2 ^ 56 - 1) (o.fieldAt 24 8)
  else if c = 0x10 then bit o.flags 3 || (inLimits 1 255 (o.fieldAt 17 1) && inLimits 12 30 (o.fieldAt 18 1))
  else if c = 0x18 then paOff (o.fieldAt 16 8) % pageBytes == 0 && o.fieldAt 24 8 % pageBytes == 0 && o.fieldAt 24 8 != 0
  else if c = 0x19 then
    decide (o.fieldAt 24 2 ≤ 4096) && inLimits 2 65535 (o.fieldAt 26 2) && (o.fieldAt 24 2 == 0 || o.fieldAt 16 8 % 32 == 0)
  else if c = 0x20 then
    inLimits 1 16777216 o.gM && inLimits 1 16777216 o.gN && inLimits 1 1048576 o.gK && (!(isMx o.gX || isMx o.gW) || o.gK % 32 == 0) &&
      strideOk (o.extAt 48 4) (elemBytes o.gX o.gK) && strideOk (o.extAt 52 4) (elemBytes o.gW o.gK) &&
      strideOk (o.extAt 56 4) (elemBytes o.gO o.gN) && rcpOk
  else if c = 0x21 then o.fieldAt 48 4 != 0 && rcpOk
  else if c = 0x22 then o.oN != 0 && rcpOk
  else if c = 0x28 then
    o.fieldAt 32 4 != 0 && (!bit o.flags 11 || (match s.pb.group? (o.fieldAt 40 2) with
      | some g => o.fieldAt 32 4 % max g.members.length 1 == 0
      | none => true))
  else if c = 0x30 then inLimits 1 (2 ^ 40) (o.fieldAt 40 8) && o.fieldAt 48 4 != 0 && inLimits 4 65536 (o.fieldAt 52 4) && o.fieldAt 52 4 % 4 == 0
  else if c = 0x31 then inLimits 1 (2 ^ 40) (o.fieldAt 40 8) && o.fieldAt 48 4 != 0 && inLimits 1 16384 (o.fieldAt 52 4)
  else if c = 0x38 then
    o.sN != 0 && inLimits 1 4096 o.sD && (!isMx o.sF || o.sD % 32 == 0) && inLimits 1 1024 o.sK && inLimits 1 256 o.sQ && strideOk (o.extAt 24 4) o.sVec
  else if c = 0x40 then
    o.fieldAt 32 8 != 0 && (match s.pb.range? o.part o.entry with
      | some r => decide (o.fieldAt 24 8 + o.fieldAt 32 8 ≤ r.size)
      | none => true)
  else if c = 0x48 then
    o.fieldAt 24 8 % 8 == 0 && (bit o.flags 0 || o.fieldAt 24 8 == 0) && (o.fieldAt 24 8 == 0 || o.fieldAt 16 8 % 8 == 0)
  else true

/-! ### Steps 4 to 6: the operands -/

/-- Bytes of a stream's elements. -/
def streamBytes (fmt n : Nat) : Nat := elemBytes fmt n

/-- Operands of an operation, by name: sources first (names as the field maps order them). -/
def State.needs (s : State) (o : Op) : List Need :=
  let c := o.opcode
  let rcp := fun (n : Nat) => match o.rcpAddr with
    | some a => [({ name := n, pa := a, len := 384, rd := true, ctl := true } : Need)]
    | none => []
  if c = 0x02 then
    [{ name := 0, pa := o.fieldAt 16 8, len := o.fieldAt 32 8, rd := true }, { name := 1, pa := o.fieldAt 24 8, len := o.fieldAt 32 8, wr := true }]
  else if c = 0x03 then [{ name := 1, pa := o.fieldAt 16 8, len := o.fieldAt 24 8, wr := true }]
  else if c = 0x10 ∨ c = 0x11 then [{ name := 9, pa := 2 ^ 56 * o.entry, len := 1 }]
  else if c = 0x18 then [{ name := 0, pa := o.fieldAt 16 8, len := o.fieldAt 24 8 }]
  else if c = 0x19 then
    (if o.fieldAt 24 2 = 0 then [] else [{ name := 0, pa := o.fieldAt 16 8, len := 32 * o.fieldAt 24 2, rd := true, ctl := true }])
  else if c = 0x20 then
    [{ name := 0, pa := o.fieldAt 16 8, len := rowsExtent o.gM o.gXs (elemBytes o.gX o.gK), rd := true, fmt := some o.gX },
     { name := 1, pa := o.fieldAt 24 8, len := rowsExtent o.gN o.gWs (elemBytes o.gW o.gK), rd := true, fmt := some o.gW },
     { name := 2, pa := o.fieldAt 32 8, len := rowsExtent o.gM o.gOs (elemBytes o.gO o.gN), wr := true }] ++
    (if isMx o.gX then [{ name := 3, pa := o.extAt 0 8, len := o.gM * (o.gK / 32), rd := true, ctl := true }] else []) ++
    (if isMx o.gW then [{ name := 4, pa := o.extAt 8 8, len := o.gN * (o.gK / 32), rd := true, ctl := true }] else []) ++ rcp 5
  else if c = 0x21 then rcp 8
  else if c = 0x22 then
    [{ name := 0, pa := o.fieldAt 16 8, len := elemBytes o.oW o.oN, rd := !o.oMaster, wr := true, fmt := some o.oW, reseal := o.oReseal }] ++
    (if o.oAlgo = 3 then [] else
      [{ name := 1, pa := o.fieldAt 24 8, len := elemBytes o.oG o.oN, rd := true, fmt := some o.oG },
       { name := 2, pa := o.fieldAt 32 8, len := elemBytes o.oS o.oN, rd := true, wr := true, fmt := some o.oS }]) ++
    (if o.oAlgo = 0 then [{ name := 3, pa := o.fieldAt 40 8, len := elemBytes o.oS o.oN, rd := true, wr := true, fmt := some o.oS }] else []) ++
    (if o.oMaster then [{ name := 4, pa := o.extAt 40 8, len := 4 * o.oN, rd := true, wr := true, fmt := some 0 }] else []) ++ rcp 5
  else if c = 0x28 then
    let m := ((s.pb.group? (o.fieldAt 40 2)).map (·.members.length)).getD 1
    [{ name := 0, pa := o.fieldAt 16 8, len := elemBytes (bits o.flags 15 14) (o.fieldAt 32 4), rd := true, fmt := some (bits o.flags 15 14) },
     { name := 1, pa := o.fieldAt 24 8, len := elemBytes (bits o.flags 13 12) (o.redDst m), wr := true }]
  else if c = 0x30 then
    [{ name := 0, pa := o.fieldAt 16 8, len := o.fieldAt 40 8 * o.fieldAt 52 4, rd := true },
     { name := 2, pa := o.fieldAt 24 8, len := o.iW * o.fieldAt 48 4, rd := true, ctl := true },
     { name := 1, pa := o.fieldAt 32 8, len := o.fieldAt 48 4 * o.fieldAt 52 4, wr := true }]
  else if c = 0x31 then
    [{ name := 1, pa := o.fieldAt 16 8, len := o.fieldAt 40 8 * elemBytes (fmt01 (bit o.flags 1)) (o.fieldAt 52 4), wr := true },
     { name := 2, pa := o.fieldAt 24 8, len := o.iW * o.fieldAt 48 4, rd := true, ctl := true },
     { name := 0, pa := o.fieldAt 32 8, len := o.fieldAt 48 4 * elemBytes (fmt01 (bit o.flags 0)) (o.fieldAt 52 4), rd := true,
       fmt := some (fmt01 (bit o.flags 0)) }]
  else if c = 0x38 then
    [{ name := 0, pa := o.fieldAt 16 8, len := o.sQ * o.sVec, rd := true, fmt := some o.sF },
     { name := 1, pa := o.fieldAt 24 8, len := rowsExtent o.sN o.sStride o.sVec, rd := true, fmt := some o.sF },
     { name := 2, pa := o.fieldAt 32 8, len := 8 * o.sK * o.sQ, wr := true }] ++
    (if bit o.flags 10 then [{ name := 3, pa := o.extAt 0 8, len := ceilDiv o.sN 8, rd := true, ctl := true }] else []) ++
    (if isMx o.sF then
      [{ name := 4, pa := o.extAt 8 8, len := o.sN * (o.sD / 32), rd := true, ctl := true },
       { name := 5, pa := o.extAt 16 8, len := o.sQ * (o.sD / 32), rd := true, ctl := true }] else [])
  else if c = 0x40 then
    [{ name := 0, pa := o.fieldAt 16 8, len := o.fieldAt 32 8, rd := true }, { name := 1, pa := o.fieldAt 48 8, len := 8, wr := true }]
  else if c = 0x41 then
    [{ name := 1, pa := o.fieldAt 24 8, len := 8, wr := true }]
  else if c = 0x48 then
    (if o.fieldAt 24 8 = 0 then [] else [{ name := 1, pa := o.fieldAt 16 8, len := o.fieldAt 24 8, wr := true }])
  else []

/-- Further checks of step 5, and the ring check of SEAL, which step 6 makes: group membership, the slot quota, the region named (R65, R120, R173, R180, R222). -/
def State.step5 (s : State) (o : Op) : List (Bool × Nat × Nat) :=
  let c := o.opcode
  let r := s.pb.range? o.part o.entry
  let kind := (r.map (·.kind)).getD 0
  if c = 0x28 then
    [(match s.pb.group? (o.fieldAt 40 2) with
      | some g => !g.members.contains (s.pb.moduleId, o.part)
      | none => true, stNoPermission, 26)]
  else if c = 0x40 ∨ c = 0x41 ∨ c = 0x42 then [(kind != 2, stNoPermission, 24)]
  else if c = 0x10 then
    match r with
    | none => []
    | some r =>
      [(s.slotsShort o r && (kind != 2 || (match s.pb.region? r.regionId with | some g => s.isHome g | none => false)), stNoPermission, 23),
       (s.pb.rings.any (fun x => x.part == o.part && (paRange x.sqBase == o.entry || paRange x.cqBase == o.entry)), stBadDescriptor, 19)]
  else []

/-- Pairs of operands that may not overlap, with whether they may be the same extent (R166, R169, R172, R173, R175, R179). -/
def Op.clashes (o : Op) : List (Nat × Nat × Bool) :=
  let c := o.opcode
  if c = 0x02 then [(0, 1, false)]
  else if c = 0x20 then [(2, 0, false), (2, 1, false), (2, 3, false), (2, 4, false), (2, 5, false)]
  else if c = 0x22 then
    (List.range 5).flatMap (fun i => ((List.range 5).filter (fun j => decide (i < j))).map (fun j => (i, j, false)))
  else if c = 0x28 then [(0, 1, true)]
  else if c = 0x30 then [(1, 0, false), (1, 2, false)]
  else if c = 0x38 then [(2, 0, false), (2, 1, false), (2, 3, false), (2, 4, false), (2, 5, false)]
  else []

/-- REDUCE_SCATTER lets DST start where SRC starts with an extent of its own (R173). -/
def Op.redPlaceOk (o : Op) : Bool :=
  o.opcode == 0x28 && bit o.flags 11 && o.fieldAt 16 8 == o.fieldAt 24 8

/-! ### Step 7 and 8: the recipe and what it declares -/

/-- Bindings a recipe may declare (R195 to R197, Table 8-6). -/
def Op.bindOk (o : Op) (j dir fmt : Nat) : Bool :=
  if o.opcode = 0x21 then fmt != 15
  else if o.opcode = 0x20 then
    (dir == 0 || fmt == 15) && (if j = 3 then dir == 2 else if j < 3 then decide (dir ≤ 1) else dir == 0)
  else
    (dir == 0 || fmt == 15) && (if j = 0 then dir == 3 else if j = 1 then decide (dir ≤ 1) else if j < 4 then dir == 0 || dir == 3 else dir == 0)

/-- Address of stream j of a RECIPE. -/
def Op.stream (o : Op) (j : Nat) : Nat := if j = 7 then o.fieldAt 40 8 else o.extAt (8 * j) 8

/-- Operands that are checked only when the recipe declares them (step 8 of R160). -/
def Op.declared (o : Op) : List Need :=
  let dir := rcDir o.rcp
  let c := o.opcode
  if c = 0x21 then
    ((List.range 8).filter (fun j => dir j != 0)).map (fun j =>
      { name := j, pa := o.stream j, len := streamBytes (rcFmt o.rcp j) (o.fieldAt 48 4), rd := dir j % 2 == 1, wr := decide (2 ≤ dir j),
        fmt := some (rcFmt o.rcp j) })
  else if c = 0x20 && !o.rcp.isEmpty then
    (if dir 1 = 1 then [{ name := 6, pa := o.extAt 32 8, len := elemBytes o.gS o.gN, rd := true, fmt := some o.gS }] else []) ++
    (if dir 2 = 1 then [{ name := 7, pa := o.extAt 40 8, len := rowsExtent o.gM o.gSs (elemBytes o.gS o.gN), rd := true, fmt := some o.gS }] else [])
  else if c = 0x22 && !o.rcp.isEmpty then
    (if dir 1 = 1 then [{ name := 1, pa := o.fieldAt 24 8, len := elemBytes o.oG o.oN, rd := true, fmt := some o.oG }] else []) ++
    (if dir 2 = 3 then [{ name := 2, pa := o.fieldAt 32 8, len := elemBytes o.oS o.oN, rd := true, wr := true, fmt := some o.oS }] else []) ++
    (if dir 3 = 3 then [{ name := 3, pa := o.fieldAt 40 8, len := elemBytes o.oS o.oN, rd := true, wr := true, fmt := some o.oS }] else [])
  else []

/-- Step 3 of the operands of step 8: OUT_STRIDE holds a row of EPI_S2 too (R169). -/
def Op.shape8 (o : Op) : Bool :=
  o.opcode != 0x20 || o.rcp.isEmpty || rcDir o.rcp 2 == 0 || strideOk (o.extAt 56 4) (elemBytes o.gS o.gN)

/-- Pairs of step 8 that may not overlap. -/
def Op.clashes8 (o : Op) : List (Nat × Nat × Bool) :=
  let dir := rcDir o.rcp
  if o.opcode = 0x21 then
    ((List.range 8).filter (fun i => decide (2 ≤ dir i))).flatMap (fun i =>
      ((List.range 8).filter (fun j => j != i && dir j != 0)).map (fun j => (i, j, dir j == 1)) ++ [(i, 8, false)])
  else if o.opcode = 0x20 then [(2, 6, false), (2, 7, o.gS == o.gO)]
  else o.clashes

/-! ### The checks as one -/

/-- The range-list entry an UNSEAL, or an OPTIM with RESEAL, takes the sealing engines for. -/
def Op.sealIdx (o : Op) : Nat := if o.opcode = 0x11 then o.entry else paRange (o.fieldAt 16 8)

/-- An UNSEAL, or an OPTIM with RESEAL, of a range that is sealed joins the queue of its sealing engines (R109). -/
def State.joinSeal (s : State) (o : Op) : State :=
  if o.opcode = 0x11 ∨ (o.opcode = 0x22 ∧ o.oReseal = true) then
    { s with gol := { s.gol with sealedRanges := s.gol.sealedRanges.map (fun (r : SealedRange) =>
      if r.part == o.part && r.range == o.sealIdx && !r.queue.contains o.id then { r with queue := r.queue ++ [o.id] } else r) } }
  else s

/-- An operation has passed its checks. One that awaits no other takes its place at the sealing engines at once (R109, R168). -/
def State.passChecks (s : State) (o : Op) : State :=
  (if o.waits.isEmpty then s.joinSeal o else s).modOp o.id (fun o =>
    { o with checked := true, checkedAt := s.clk.hmesh, resealed := o.opcode == 0x22 && o.oReseal && s.isSealed o.part o.sealIdx })

/-- Ends a descriptor that fails a check: no effect (R71, R160). -/
def State.failOp (s : State) (id : Nat) (e : Nat × Nat) : State := s.modOp id (fun o =>
  { o with phase := .ended, status := e.1, detail := e.2, result := 0, got := [], asked := [], waitSince := none, waitBlks := [], held := none, late := false, stall := 0 })

/-- Outcome of reading a control input. -/
inductive CtlRead where
  | bad (e : Nat × Nat)
  | wait
  | got (bs : Bytes)

/-- Reads a control input once, through its tag pipeline (R159, R182); poison gives FETCH_POISON. -/
def State.readCtl (s : State) (id p : Nat) (x : Opd) : CtlRead × State :=
  let r := s.opReady id p [(x, x.off, x.len)] []
  match r.2.op? id with
  | none => (.wait, r.2)
  | some o =>
    if !r.1 then (.wait, r.2)
    else
      let s := r.2.touchRd p (x, x.off, x.len)
      if o.cvnBad ≠ 0 then (.bad (cvnStatus o.cvnBad), s)
      else if s.opBad o x x.off x.len then (.bad (stPoisoned, dtFetchPoison), s)
      else (.got (s.opBytes o x x.off x.len), s)

/-- Steps 3 to 8 of R160, the extension record read. -/
def State.checkRest (s : State) (o : Op) : State :=
  if !s.step3 o then s.failOp o.id failShape
  else match s.checkNeeds o.part (s.needs o) (s.step5 o) (if o.redPlaceOk then [] else o.clashes) [] with
  | .error e => s.failOp o.id e
  | .ok ops =>
    match o.rcpAddr with
    | none => s.passChecks o
    | some _ =>
      match ops.at? (if o.opcode = 0x21 then 8 else 5) with
      | none => s
      | some x =>
        let r := s.readCtl o.id o.part x
        match r.1 with
        | .bad e => r.2.failOp o.id e
        | .wait => r.2
        | .got img =>
          let s := r.2
          if !recipeOk img o.bindOk then s.failOp o.id failRecipe
          else
            let o := { o with rcp := img }
            if !o.shape8 then s.failOp o.id failShape
            else match s.checkNeeds o.part o.declared [] o.clashes8 ops with
            | .error e => s.failOp o.id e
            | .ok _ => (s.modOp o.id (fun o => { o with rcp := img })).passChecks o

/-- The checks of R160 of an admitted operation that has not passed them yet; they wait while a control input is on its way. -/
def State.tryCheck (s : State) (id : Nat) : State :=
  match s.op? id with
  | none => s
  | some o =>
    if o.checked || o.phase != .admitted then s
    else
      let r := o.step1
      if r.1 then s.failOp id failReserved
      else if r.2 then s.failOp id failFmt
      else match o.extAddr with
      | none => s.checkRest o
      | some a =>
        if !o.ext.isEmpty then s.checkRest o
        else if a % 64 ≠ 0 then s.failOp id failShape
        else match s.opd o.part a 64 with
        | .error e => s.failOp id e
        | .ok x =>
          if s.isSealed o.part x.idx || x.rng.kind == 2 then s.failOp id failPlace
          else
            let r := s.readCtl id o.part x
            match r.1 with
            | .bad e => r.2.failOp id e
            | .wait => r.2
            | .got ext =>
              if crc32c (ext.take 60) ≠ leAt ext 60 4 then r.2.failOp id (stCheckFail, 16)
              else
                let o := { o with ext := ext }
                if o.extReserved then r.2.failOp id failReserved
                else (r.2.modOp id (fun o => { o with ext := ext })).checkRest o

end Sys2Proof.Machine
end

