-- ==== Sys2Proof/Machine/Rings.lean ====
section
/-! DEFINITION. Rings, descriptors, completions and their interrupts, and partition and ring resets (R64 to R81, Tables 3-4 to 3-21). -/

namespace Sys2Proof.Machine

/-! ### Interrupts (R75) -/

/-- COAL_TIME_EXPIRY: COAL_TIME has passed since the first counted completion (R75). -/
def execCoalTimeExpiry (port ld vector : Nat) (s : State) : Out :=
  let i := ldIdx port ld
  match s.disp.coal.find? (fun c => c.ldIdx == i && c.vector == vector), s.pb.partOfLd i with
  | some c, some p => if s.clk.hmesh < c.since + 1400 * (s.coalCfg p vector).2 then .next s else .next (s.fireVector i vector)
  | _, _ => .next s

/-! ### The ring to fetch from (R68) -/

/-- The first of some rings in ascending number, starting after the one served last. -/
def nextTurn (last : Nat) (rs : List PbRing) : Option PbRing :=
  let key := fun (r : PbRing) => (r.ring + 4095 - last) % 4096
  rs.foldl (fun b r => match b with
    | none => some r
    | some x => if key r < key x then some r else b) none

/-- The ring the dispatcher fetches from next (R68) (DEDUCED, log 63). -/
def State.nextRing (s : State) : Option PbRing :=
  let all := s.pb.rings.filter s.mayFetch
  let rt := all.filter (fun r => s.pb.isRt r.part)
  let rs := if rt.isEmpty then all else rt
  let at_ := fun (r : PbRing) => ((s.ring r.ring).eligibleAt).getD s.clk.hmesh
  let own := rs.filter (fun r => s.reserveFree r.part)
  let pool := rs.filter (fun r => !s.reserveFree r.part)
  let first := match (pool.map at_).min? with
    | some t => pool.filter (fun r => at_ r == t)
    | none => []
  nextTurn s.disp.lastRing (own ++ first)

/-! ### Fetching (R69 to R72) -/

/-- Checks 1 to 5 of R71 (DEDUCED, log 64). -/
def State.headFail (s : State) (o : Op) : Option (Nat × Nat) :=
  let d := o.desc
  let dist := leAt d 2 2 % 512
  firstBad [
    (crc32c (d.take 60) != leAt d 60 4, stCheckFail, dtDescCrc),
    (leAt d 4 2 != o.seq, stBadDescriptor, dtSeqMismatch),
    (!opcodes.contains (leAt d 0 1), stBadDescriptor, dtBadOpcode),
    (decide (8 ≤ leAt d 1 1) || decide (512 ≤ leAt d 2 2) || leAt d 12 4 != 0, stBadDescriptor, dtReservedSet),
    (decide (256 < dist) || decide (2 ^ ((s.pb.ring? o.ring).map (·.sqLog2)).getD 0 ≤ dist), stBadDescriptor, dtBadDep)]

/-- The awaited descriptors of a fetched one that have not completed, and whether the one that DEP_DIST names has ended with a status other than OK or never
completes (R72) (DEDUCED, log 46). -/
def State.depsOf (s : State) (o : Op) : List Nat × Bool :=
  let dist := leAt o.desc 2 2 % 512
  let mine := s.disp.ops.filter (fun x => x.ring == o.ring && decide (x.idx < o.idx))
  let fence := if bit (leAt o.desc 1 1) 1 then mine.map (·.id) else []
  if dist = 0 then (fence, false)
  else if o.idx < dist || setHas (s.ring o.ring).lost (o.idx - dist) then (fence, true)
  else ((((mine.filter (fun x => x.idx == o.idx - dist)).map (·.id)) ++ fence).eraseDups, false)

/-- Takes a descriptor that was read for an operation slot: it is checked and admitted, or ends at once (R71). -/
def State.takeDesc (s : State) (id : Nat) (bs : Bytes) (bad : Bool) : State :=
  let s := s.modOp id (fun o => { o with
    desc := bs, got := [], asked := [], opcode := leAt bs 0 1, tag := leAt bs 8 4, int := bit (leAt bs 1 1) 0, okOnly := bit (leAt bs 1 1) 2 })
  match s.op? id with
  | none => s
  | some o =>
    if bad then s.failOp id (stPoisoned, dtFetchPoison)
    else match s.headFail o with
    | some e => s.failOp id e
    | none =>
      let d := s.depsOf o
      (s.modOp id (fun o => { o with waits := d.1, depFailed := d.2 })).tryCheck id

/-- Reads the descriptor of a slot whose fetch is under way: at its tag pipeline, or from the cavern when the ring's range is backed by it. -/
def State.readDesc (s : State) (id : Nat) : State :=
  match s.op? id with
  | none => s
  | some o =>
    match s.pb.ring? o.ring with
    | none => s
    | some r =>
      match s.opd o.part (r.sqBase + 64 * (o.seq % 2 ^ r.sqLog2)) 64 with
      | .error _ => s
      | .ok x =>
        let y := s.lineReady id x .data (x.off / 64)
        if !y.1 then y.2
        else
          let s := y.2.touchRd o.part (x, x.off, 64)
          match s.op? id with
          | none => s
          | some o =>
            if o.cvnBad ≠ 0 then s.failOp id (cvnStatus o.cvnBad)
            else
              let v := s.opLine o x (x.off / 64)
              s.takeDesc id v.1 v.2

/-- A descriptor that has come in is checked; otherwise the dispatcher fetches the next eligible one (R68, R71). -/
def State.fetchDesc (s : State) : State × Option Nat :=
  if !s.dataUp then (s, none)
  else
    let come := fun (o : Op) => o.desc.isEmpty && o.phase == .admitted && !o.got.isEmpty
    match s.disp.ops.find? come with
    | some o => ((s.readDesc o.id).noteEligible, some o.id)
    | none =>
      let s := s.noteEligible
      match s.nextRing with
      | none => (s, none)
      | some r =>
        let x := s.ring r.ring
        let id := s.disp.nextOp
        let o : Op := { id := id, ring := r.ring, idx := x.total, seq := x.sqHead, part := r.part, opcode := 0, tag := 0, int := false, okOnly := false, desc := [] }
        let s := { s with disp := { s.disp with ops := s.disp.ops ++ [o], nextOp := id + 1, lastRing := r.ring } }
        let s := s.modRing r.ring (fun x => { x with sqHead := (x.sqHead + 1) % 65536, total := x.total + 1, eligibleAt := none })
        ((s.readDesc id).noteEligible, some id)

/-! ### Completions (R73, R74) -/

/-- Writes a completion into its slot: at the slot's tag pipeline, where it stands at once, or to the cavern that backs the ring, whose line is read first
(R73, DEDUCED, log 26), and where it stands once its holder has acknowledged it (R72, R75). -/
def State.putCompletion (s : State) (o : Op) (x : Opd) (bs : Bytes) : State :=
  let c : Chunk := { off := x.off, data := bs, bad := false }
  let l := x.off / 64
  -- one that ended without its turn leaves the sealing engines' queue
  if x.rng.regionId = 0 then ((s.opPut o.id o.part x l (chunkLine [c] l)).stopSeal o.id).completed o.id
  else
    let busy := s.cav.accs.any (fun a => a.rid == x.rng.regionId && a.off == 64 * l && (match a.what with | .msg => false | _ => true))
    if busy then s
    else
      let y := s.lineReady o.id x .data l
      match y.2.op? o.id with
      | none => y.2
      | some o =>
        if !y.1 then y.2
        else
          let v := chunkLine [c] l
          let old := y.2.opLine o x l
          let s := (y.2.nearDel (x.line l / 64)).stopSeal o.id
          -- what others have read of the line is out of date
          let s := { s with disp := { s.disp with ops := s.disp.ops.map (fun (q : Op) =>
            { q with
              got := if q.phase == OpPhase.ended then tabDel q.got (x.line l) else q.got
              asked := if q.phase == OpPhase.ended then setDel q.asked (x.line l) else q.asked
              posting := q.posting || q.id == o.id }) } }
          s.cvn (.compl o.id) x.rng.regionId 0 (64 * l) o.part (.wr (mergeBytes old.1 v.1 v.2.1) old.2)

/-- Writes the completion of an operation that has ended (R68, R73); while an earlier one of its ring is on its way, it waits. -/
def State.finishOne (s : State) (id : Nat) : State :=
  match s.op? id with
  | none => s
  | some o =>
    match s.pb.ring? o.ring with
    | none => s
    | some r =>
      if (o.phase != OpPhase.ended) || s.disp.ops.any (fun q => q.ring == o.ring && q.posting) then s
      else
        let n := (s.ring o.ring).cqTail
        let stall := if o.late then min 65535 (o.stall / 1400) else 0
        let bs := completionBytes o.tag o.seq o.status o.detail o.degraded o.late (phaseBit r.cqLog2 n) o.result stall
        match s.opd o.part (r.cqBase + 16 * (n % 2 ^ r.cqLog2)) 16 with
        | .error _ => s
        | .ok x => s.putCompletion o x bs

/-- OPERATION_FINISH: the ends of some operations reach the dispatcher in one HMESH cycle; their completions are written in the order of their fetch (R73). -/
def execOperationFinish (ops : List Nat) (s : State) : Out :=
  let mine := (s.disp.ops.filter (fun o => ops.contains o.id)).map (·.id)
  .next ((mine.foldl (fun s id => s.finishOne id) s).settleTables).noteEligible

/-! ### Doorbell slots (R66, R67, R76) -/

/-- A write of a host to a slot of a ring: `f` when the ring is its partition's; otherwise it is ignored and counted (R66) (DEDUCED, log 67). -/
def State.doorbell (s : State) (port ld ring : Nat) (f : Nat → PbRing → State) : State :=
  match s.ldPart port ld with
  | none => s
  | some p =>
    match s.pb.ringOf? p ring with
    | none => s.noPerm p
    | some r => f p r

/-- A pointer write: ignored and counted while the partition or the ring is being reset (R79, R81) (DEDUCED, log 65). -/
def State.pointerWrite (s : State) (port ld ring : Nat) (f : Nat → PbRing → State) : State :=
  s.doorbell port ld ring (fun p r => if (s.part p).st ≠ 0 ∨ (s.ring ring).st = 3 then s.noPerm p else f p r)

/-- An invalid pointer write stops the ring (R67). -/
def State.stopRing (s : State) (p ring err : Nat) : State :=
  ((s.modRing ring (fun x => { x with st := 2, error := err })).logEv .ringStopped p ring 0 0).vector0 p .ringStopped

/-- SQ_TAIL_WRITE (R67). -/
def execSqTailWrite (port ld ring value : Nat) (s : State) : Out :=
  let v := value % 65536
  .next (s.pointerWrite port ld ring (fun p r =>
    if 2 ^ r.sqLog2 < (v + 65536 - (s.ring ring).sqHead) % 65536 then s.stopRing p ring 1
    else (s.modRing ring (fun x => { x with sqTail := v })).noteEligible))

/-- CQ_HEAD_WRITE (R67). -/
def execCqHeadWrite (port ld ring value : Nat) (s : State) : Out :=
  let v := value % 65536
  .next (s.pointerWrite port ld ring (fun p _ =>
    let x := s.ring ring
    if (x.cqTail + 65536 - x.cqHead) % 65536 < (v + 65536 - x.cqHead) % 65536 then s.stopRing p ring 2
    else (s.modRing ring (fun x => { x with cqHead := v })).noteEligible))

/-- RING_INT_MASK_WRITE: ignored and counted during a reset of the partition (R79); clearing MASK fires the vector when a completion with INT was written while it was set (R76). -/
def execRingIntMaskWrite (port ld ring value : Nat) (s : State) : Out :=
  .next (s.doorbell port ld ring (fun p r =>
    if (s.part p).st ≠ 0 then s.noPerm p
    else if bit value 0 then s.modRing ring (fun x => { x with mask := true })
    else
      let due := (s.ring ring).mask && (s.ring ring).maskedInt
      let s := s.modRing ring (fun x => { x with mask := false, maskedInt := false })
      if due then s.fireVector r.intLd r.vector else s))

/-! ### Ring reset (R81, Table 3-21) -/

/-- RING_RESET: the ring's operations stop without completions and are counted; during a broader reset it joins that reset (R80, R81). -/
def execRingReset (port ld ring value : Nat) (s : State) : Out :=
  .next (s.doorbell port ld ring (fun p _ =>
    if !bit value 0 then s
    else if (s.part p).st ≠ 0 then s.logEv .ringReset p ring 0 0
    else if (s.ring ring).st = 3 then s
    else
      let ops := s.disp.ops.filter (fun o => o.ring == ring)
      let s := ops.foldl (fun s o => (s.stopWork o 1).releaseDeps o.id false) s
      let s := s.modPart p (fun x => { x with aborts := x.aborts + ops.length })
      ((s.modRing ring (fun x => { x with st := 3, eligibleAt := none })).logEv .ringReset p ring 0 0).settleTables.pumpReqs.noteEligible))

/-- RING_RESET_END: pointers 0, PHASE 1, no error, IDLE; MASK is kept (Table 3-21). -/
def execRingResetEnd (ring : Nat) (s : State) : Out :=
  if (s.ring ring).st ≠ 3 || s.ringOps ring != 0 then .next s
  else .next (s.modRing ring (fun x => { mask := x.mask, maskedInt := x.maskedInt }))

/-! ### Partition reset (R64, R78) -/

/-- PART_RESET: a host's write of PART_RESET (R64) (DEDUCED, log 75). -/
def execPartReset (port ld value : Nat) (s : State) : Out :=
  match s.ldPart port ld with
  | none => .next s
  | some p =>
    if bits value 31 16 ≠ 0xC0DE ∨ bits value 5 0 ≠ p then .next ((s.noPerm p).logEv .partRefused p (ldIdx port ld) 0 0)
    else if s.dataUp then .next (s.startPartReset p (((s.pb.part? p).map (·.keyOnReset)).getD false) false false)
    else .next (s.logEv .partReset p 0 0 0)

/-- PARTITION_RESET_COMPLETE: the partition's operations have completed; the key is handled and the partition returns to service (R78 steps 5, 6). -/
def execPartitionResetComplete (part : Nat) (s : State) : Out :=
  match (s.part part).reset with
  | none => .next s
  | some j => if !s.dataUp || !(s.opsOf part).isEmpty then .next s else .next (s.endPartReset part j).noteEligible

end Sys2Proof.Machine
end

