-- ==== Sys2Proof/Machine/OpRun.lean ====
section
/-! DEFINITION. When a staged operation may run, and NOP, FENCE, COPY, FILL, PLACE, PREFETCH, COUNTERS, GATHER and SCATTER_ADD (R72, R85 to R96, R163 to R167, R175 to R177, R181, R302). -/

namespace Sys2Proof.Machine

/-! ### When an operation may run (R68, R72, R298, R302) -/

/-- Starts an operation, when delayed admission does not hold it back: at level 42 at most 16 starts per window, at level 43 none (Table 14-2) (DESIGN CHOICE, log 62). -/
def State.startOp (s : State) (id : Nat) : Option State :=
  if 43 ≤ s.pwr.levelHub ∨ (s.pwr.levelHub = 42 ∧ 16 ≤ s.disp.starts) then none
  else some (({ s with disp := { s.disp with starts := s.disp.starts + 1 } } : State).modOp id (fun o => { o with started := true }))

/-- An operation of opcode `code` takes its turn. It goes on only when it has passed its checks, what it awaits has completed, and it may issue (R246, R254) and start;
with DEP_OK_ONLY and a failed dependency it completes ABORTED DEP_FAILED (R72). One whose writes wait for acknowledgements ends with the last. -/
def State.opTurn (s : State) (id code : Nat) (go : State → Op → State) : State :=
  if !s.dataUp then s
  else
    match s.op? id with
    | none => s
    | some o =>
      if o.opcode ≠ code ∨ o.desc.isEmpty then s
      else
        let s := s.tryCheck id
        match s.op? id with
        | none => s
        | some o =>
          if o.phase = .ended || !o.checked || !o.waits.isEmpty then s
          else if o.okOnly && o.depFailed then s.endOp id stAborted dtDepFailed 0
          else if o.phase = .running && o.stage == 9 then s.finishWrites o
          else match s.issueTurn o with
          | none => s.modOp id (fun o => { o with issueWait := true })
          | some s =>
          if o.started then go s o
          else match s.startOp id with
            | none => s
            | some s => match s.op? id with
              | none => s
              | some o => go s o

/-- An operand of an operation, by name. -/
def State.operand (s : State) (o : Op) (n : Nat) : Option Opd :=
  ((s.needs o ++ o.declared).find? (fun x => x.name == n)).bind (fun x => (s.opd o.part x.pa x.len).toOption)

/-- Runs `go` once everything the operation reads, and what a write of part of a cavern line needs, is at hand; notes POISONED and TABLE_STALE
(R128, R164). A cavern access that ended otherwise ends the operation. -/
def State.withInputs (s : State) (o : Op) (rd wr : List Span3) (poison : Bool) (go : State → Op → State) : State :=
  let r := s.opReady o.id o.part rd wr
  match r.2.op? o.id with
  | none => r.2
  | some o =>
    if !r.1 then r.2
    else if o.cvnBad ≠ 0 then r.2.endOp o.id (cvnStatus o.cvnBad).1 (cvnStatus o.cvnBad).2 o.result
    else
      let s := r.2
      let bad := poison && rd.any (fun x => s.opBad o x.1 x.2.1 x.2.2)
      let stale := s.opStale rd
      let s := s.modOp o.id (fun o => { o with poisoned := o.poisoned || bad, stale := o.stale || stale })
      match s.op? o.id with
      | none => s
      | some o => go (rd.foldl (fun s x => s.touchRd o.part x) s) o

/-- Runs `go` once some inputs are at hand, before the operation takes them: what else it reads depends on them. -/
def State.peekInputs (s : State) (o : Op) (rd : List Span3) (go : State → Op → State) : State :=
  let r := s.opReady o.id o.part rd []
  match r.2.op? o.id with
  | none => r.2
  | some o =>
    if !r.1 then r.2
    else if o.cvnBad ≠ 0 then r.2.endOp o.id (cvnStatus o.cvnBad).1 (cvnStatus o.cvnBad).2 o.result
    else go r.2 o

/-- Work on the clusters ran on reduced resources when any is out of service (R18). -/
def State.noteReduced (s : State) (id : Nat) (onClusters : Bool) : State :=
  if onClusters && s.computeReduced then s.modOp id (fun o => { o with degraded := true }) else s

def Opd.all (x : Opd) : Span3 := (x, x.off, x.len)

/-! ### NOP and FENCE (R181) -/

/-- NOP. -/
def execNop (op : Nat) (s : State) : Out := .next (s.opTurn op 0x00 (fun s o => s.endOp o.id stOk dtNone 0))

/-- FENCE: every earlier descriptor of its ring has completed and, with SCOPE, every operation of the partition admitted before it. -/
def execFence (op : Nat) (s : State) : Out :=
  .next (s.opTurn op 0x01 (fun s o =>
    if s.disp.ops.any (fun x => decide (x.id < o.id) && (x.ring == o.ring || (bit o.flags 0 && x.part == o.part))) then s
    else s.endOp o.id stOk dtNone 0))

/-! ### COPY and FILL (R166) -/

/-- The chunks that carry `len` bytes of an operand to an offset: one per line read, with its poison. -/
def State.copyChunks (s : State) (o : Op) (x : Opd) (off len dst : Nat) : List Chunk :=
  (spanLines off len).map (fun l =>
    let v := s.opLine o x l
    let a := max (64 * l) off
    let b := min (64 * l + 64) (off + len)
    { off := dst + (a - off), data := slice v.1 (a - 64 * l) (b - a), bad := v.2 })

/-- COPY: the values of SRC, expanded when it is sealed. -/
def execCopy (op : Nat) (s : State) : Out :=
  .next ((s.opTurn op 0x02 (fun s o =>
    match s.operand o 0, s.operand o 1 with
    | some src, some dst =>
      s.withInputs o [src.all] [dst.all] true (fun s o =>
        let cs := s.copyChunks o src src.off src.len dst.off
        let s := s.noteReduced o.id (s.isSealed o.part src.idx)
        (s.opStore o.id o.part dst cs).settleOp o.id false 0)
    | _, _ => s)).settleTables)

/-- The bytes of a FILL: byte j of DST is byte (DST + j) mod 8 of PATTERN. -/
def fillBytes (dst len : Nat) (pattern : Bytes) : Bytes := (List.range len).map (fun j => pattern[(dst + j) % 8]?.getD 0)

/-- FILL. -/
def execFill (op : Nat) (s : State) : Out :=
  .next ((s.opTurn op 0x03 (fun s o =>
    match s.operand o 1 with
    | some dst =>
      s.withInputs o [] [dst.all] false (fun s o =>
        (s.opStore o.id o.part dst [{ off := dst.off, data := fillBytes (o.fieldAt 16 8) dst.len (slice o.desc 32 8), bad := false }]).settleOp o.id false 0)
    | none => s)).settleTables)

/-! ### PLACE (R88, R89, R167) -/

/-- Fills a block of the module's own deep tier under a hint, when it fits; a block that does not decode goes to recovery. -/
def State.placeFill (s : State) (p blk : Nat) (pin : Bool) : Option State :=
  let ent := s.ent? blk
  let lines := match ent with
    | some e => 4 * e.sectors
    | none => 64
  let s := if ent.any (fun e => e.mode == modeLegacy) then s.countLegacy else s
  match s.nearFill blk p .clean pin false with
  | some s => some ((s.useDeep blk 0 lines p).useNear blk 0 (4 * sectorsAbove ent) p)
  | none => none

/-- PLACE: an eviction, or the hint of every page and, under PREFER_NEAR and PIN_NEAR, a fill of every block that is not resident (DEDUCED, log 109). -/
def execPlace (op : Nat) (s : State) : Out :=
  .next ((s.opTurn op 0x18 (fun s o =>
    match s.operand o 0 with
    | none => s
    | some x =>
      let hint := o.flags % 8
      let fill := !bit o.flags 3 && decide (hint ≤ 1)
      let mine := s.isSealed o.part x.idx || (s.pinSlot o.part x.rng).isSome
      let rd := if fill && x.rng.regionId == 0 then [x.all] else []
      let r := s.opReady o.id o.part rd []
      if !r.1 then r.2
      else
        let s := r.2
        if bit o.flags 3 then ((s.residentIn (x.rng.addr x.idx x.off) x.len).foldl (fun s b => s.evictBlk b) s).settleOp o.id false 0
        else
          let s := (s.setHint x.rng x.idx x.off x.len hint).notePlaced o.part x.idx (x.rng.addr x.idx x.off / pageBytes) (x.len / pageBytes)
          if !fill then s.settleOp o.id false 0
          else
            let go := (spanBlks x.off x.len).foldl (fun (acc : Nat × State) b =>
              let blk := x.blk b
              if (acc.2.nearFind blk).isSome then acc
              else if x.rng.regionId = 0 then
                (match acc.2.placeFill o.part blk (hint == 1) with
                  | some s => (acc.1 + 1, s)
                  | none => (acc.1, match acc.2.aboveBytes blk with
                    | .error d => acc.2.damageBlk blk d false
                    | .ok _ => acc.2.noRoom blk o.part (hint == 1)))
              else if !mine then (acc.1, acc.2.skipBlk o.part)
              else
                let s := acc.2.modOp o.id (fun o => { o with left := o.left + 1 })
                (acc.1, s.cvn (.place o.id o.part x.idx (4096 * b)) x.rng.regionId (s.regionSlot o.part x.rng) (4096 * b) o.part
                  (.rd 64 (s.isSealed o.part x.idx) false))) (0, s)
            -- blocks that a holder of this module served at once are counted already
            let n := go.1 + ((go.2.op? o.id).map (·.result)).getD 0
            go.2.settleOp o.id false n)).settleTables)

/-! ### PREFETCH (R94 to R96) -/

/-- Fields of a cue entry (Table 4-5). -/
def cueOf (e : Bytes) : Cue :=
  { addr := leAt e 0 8, blocks := leAt e 8 4 % 2 ^ 24, layer := leAt e 12 2, group := leAt e 14 1, alt := 0, weight0 := leAt e 15 1 / 16,
    look := bits (leAt e 15 1) 3 2, buffer := bits (leAt e 15 1) 1 0 == 1, cluster := leAt e 16 1 % 64, weight := leAt e 15 1 / 16 }

/-- The first check of R95 that an entry fails, given the entries before it. -/
def State.cueFail (s : State) (p layers : Nat) (before : List Cue) (e : Bytes) (bad : Bool) : Option (Nat × Nat) :=
  let c := cueOf e
  let target := bits (leAt e 15 1) 1 0
  firstBad [
    (bad, stPoisoned, dtFetchPoison),
    (crc32c (e.take 28) != leAt e 28 4, stCheckFail, dtNone),
    (leAt e 11 1 != 0 || decide (64 ≤ leAt e 16 1) || !zeroAt e 17 11, stBadDescriptor, dtReservedSet),
    (decide (2 ≤ target), stBadDescriptor, 17),
    (c.addr % 4096 != 0 || c.blocks == 0 || (c.group == 0 && c.weight0 != 0) || (target != 1 && c.cluster != 0) || decide (layers ≤ c.layer) ||
      (match before.getLast? with | some b => decide (c.layer < b.layer) | none => false) ||
      (c.group != 0 && decide (8 ≤ (before.filter (fun b => b.layer == c.layer && b.group == c.group)).length)), stBadDescriptor, 18),
    ((s.pb.range? p (paRange c.addr)).isNone, stOutOfBounds, dtBadRange),
    (match s.pb.range? p (paRange c.addr) with | some r => decide (r.size < paOff c.addr + 4096 * c.blocks) | none => false, stOutOfBounds, dtBadOffset)]

/-- The cues of a sheet, or its first failure (R95). -/
def State.readSheet (s : State) (p layers : Nat) (es : List (Bytes × Bool)) : Except (Nat × Nat) (List Cue) :=
  es.foldl (fun acc e => match acc with
    | .error f => .error f
    | .ok l => match s.cueFail p layers l e.1 e.2 with
      | some f => .error f
      | none =>
        let c := cueOf e.1
        .ok (l ++ [{ c with alt := (l.filter (fun b => b.layer == c.layer && b.group == c.group)).length }])) (.ok [])

/-- Replaces the sheet in one step (R96). -/
def State.loadSheet (s : State) (p layers : Nat) (cs : List Cue) : State :=
  (s.dropSheet p true).modCue p (fun h => { h with loaded := !cs.isEmpty, layerCount := if cs.isEmpty then 0 else layers, cues := cs })

/-- PREFETCH. -/
def execPrefetch (op : Nat) (s : State) : Out :=
  .next ((s.opTurn op 0x19 (fun s o =>
    let n := o.fieldAt 24 2
    let layers := o.fieldAt 26 2
    if n = 0 then (s.loadSheet o.part layers []).endOp o.id stOk dtNone 0
    else match s.operand o 0 with
    | none => s
    | some x =>
      s.withInputs o [x.all] [] false (fun s o =>
        let es := (List.range n).map (fun i => (s.opBytes o x (x.off + 32 * i) 32, s.opBad o x (x.off + 32 * i) 32))
        match s.readSheet o.part layers es with
        | .error f => s.endOp o.id f.1 f.2 0
        | .ok cs => (s.loadSheet o.part layers cs).endOp o.id stOk dtNone n))).settleTables)

/-! ### COUNTERS (R92, R93) -/

/-- Pages of a partition's HDM ranges in this module's deep tier, ascending, with their hints (DEDUCED, log 110). -/
def State.countedPages (s : State) (p : Nat) : List (Nat × Nat) :=
  let rs := s.pb.rangesOf p
  let ps := ((List.range rs.length).zip rs).flatMap (fun x =>
    if x.2.regionId ≠ 0 ∨ x.2.kind = 2 then []
    else (List.range (x.2.size / pageBytes)).map (fun i => (x.2.maBase / pageBytes + i, s.hintAt x.2 x.1 (pageBytes * i))))
  let bases := rs.filter (fun r => r.regionId == 0 && r.kind != 2)
  -- ranges do not overlap: each page comes once; whole ranges in ascending base
  if bases.length ≤ 1 then ps else ps.foldl (fun acc x => acc.takeWhile (fun y => decide (y.1 < x.1)) ++ [x] ++ acc.dropWhile (fun y => decide (y.1 < x.1))) []

/-- An access-counter record (Table 4-4). -/
def State.pageRecord (s : State) (x : Nat × Nat) : Nat :=
  fld x.2 3 56 + fld x.1 24 32 + fld (tabGet 0 s.mem.wrCnt x.1) 16 16 + tabGet 0 s.mem.rdCnt x.1 % 65536

/-- COUNTERS. -/
def execCounters (op : Nat) (s : State) : Out :=
  .next ((s.opTurn op 0x48 (fun s o =>
    let pages := s.countedPages o.part
    let dump := bit o.flags 0
    let out := if dump then s.operand o 1 else none
    let wr := match out with | some x => [x.all] | none => []
    s.withInputs o [] wr false (fun s o =>
      let recs := (pages.take (o.fieldAt 24 8 / 8)).flatMap (fun x => leBytes 8 (s.pageRecord x))
      let s := if !bit o.flags 1 then s else
        let mine := pages.map (·.1)
        let half := fun (t : Tab Nat) => (t.map (fun (x : Nat × Nat) => if mine.contains x.1 then (x.1, x.2 / 2) else x)).filter (fun x => x.2 != 0)
        ({ s with mem := { s.mem with rdCnt := half s.mem.rdCnt, wrCnt := half s.mem.wrCnt } } : State).modPart o.part (fun x => { x with epochs := x.epochs + 1 })
      let n := pages.length
      match out with
      | some x => (s.opStore o.id o.part x [{ off := x.off, data := recs, bad := false }]).settleOp o.id false n
      | none => s.settleOp o.id false n))).settleTables)

/-! ### GATHER and SCATTER_ADD (R175 to R177) -/

/-- Index c of an index list, and whether it was read with poison. -/
def State.indexAt (s : State) (o : Op) (x : Opd) (c : Nat) : Nat × Bool :=
  (leNat (s.opBytes o x (x.off + o.iW * c) o.iW), s.opBad o x (x.off + o.iW * c) o.iW)

/-- Indices of an operation of R175 and R176. -/
def State.indices (s : State) (o : Op) (x : Opd) : List (Nat × Nat × Bool) :=
  (List.range (o.fieldAt 48 4)).map (fun c => (c, s.indexAt o x c))

def Op.rows (o : Op) : Nat := o.fieldAt 40 8

/-- GATHER. -/
def execGather (op : Nat) (s : State) : Out :=
  .next ((s.opTurn op 0x30 (fun s o =>
    match s.operand o 0, s.operand o 2, s.operand o 1 with
    | some tab, some ix, some out =>
      s.peekInputs o [ix.all] (fun s o =>
        let rb := o.fieldAt 52 4
        let is := s.indices o ix
        let ok := is.filter (fun i => decide (i.2.1 < o.rows))
        let oob := is.length - ok.length
        s.withInputs o (ix.all :: ok.map (fun i => (tab, tab.off + i.2.1 * rb, rb))) [out.all] true (fun s o =>
          let cs := is.flatMap (fun i =>
            let dst := out.off + i.1 * rb
            if i.2.1 < o.rows then
              (s.copyChunks o tab (tab.off + i.2.1 * rb) rb dst).map (fun c => { c with bad := c.bad || i.2.2 })
            else if bit o.flags 2 then [({ off := dst, data := List.replicate rb 0, bad := i.2.2 } : Chunk)] else [])
          let s := s.noteReduced o.id (s.isSealed o.part tab.idx)
          (s.opStore o.id o.part out cs).settleOp o.id (!bit o.flags 2 && oob != 0) oob))
    | _, _, _ => s)).settleTables)

/-- Bytes that leave an element as it is: −0 in the element format (R147) (DESIGN CHOICE, log 69). -/
def negZero (b16 : Bool) : Bytes := if b16 then [0x00, 0x80] else [0x00, 0x00, 0x00, 0x80]

/-- One row of a SCATTER_ADD: each element of the row at `dst` gets the element of `add`, one FP32 addition and one rounding each (R153). -/
def addRow (tgtBf16 srcBf16 : Bool) (old add : Bytes) : Bytes :=
  let w := if tgtBf16 then 2 else 4
  let aw := if srcBf16 then 2 else 4
  (List.range (old.length / w)).flatMap (fun i =>
    leBytes w (apertureAddBits (if tgtBf16 then bf16 else fp32) (if srcBf16 then bf16 else fp32) (leAt old (w * i) w) (leAt add (aw * i) aw)))

/-- A line of addends for a holding module: those of the row that fall in line l, −0 elsewhere. -/
def addendLine (tgtBf16 srcBf16 : Bool) (dst l : Nat) (add : Bytes) : Bytes :=
  let w := if tgtBf16 then 2 else 4
  let aw := if srcBf16 then 2 else 4
  let n := add.length / aw
  (List.range (64 / w)).flatMap (fun j =>
    let a := 64 * l + w * j
    if dst ≤ a ∧ a < dst + w * n then slice add (aw * ((a - dst) / w)) aw else negZero srcBf16)

/-- Adds a row into the table: at each line's tag pipeline through its merge buffer, with the near-tier recall of R27, or at the holding module (R176).
A line that a poisoned SRC line feeds, by `bad`, takes no addition and is poisoned. -/
def State.scatterRow (s : State) (id p : Nat) (x : Opd) (tgtBf16 srcBf16 : Bool) (dst : Nat) (add : Bytes) (bad : Nat → Bool) : State :=
  let w := if tgtBf16 then 2 else 4
  let n := add.length / (if srcBf16 then 2 else 4)
  let lines := spanLines dst (w * n)
  match s.op? id with
  | none => s
  | some o =>
    if x.rng.regionId = 0 then
      let new := addRow tgtBf16 srcBf16 ((lines.flatMap (fun l => (s.lineAt (x.line l)).1) |> fun b => slice b (dst % 64) (w * n))) add
      lines.foldl (fun s l =>
        let line := x.line l
        let s := ((s.keepReads line).dropCue (line / 64)).evictBlk (line / 64)
        let v := chunkLine [{ off := dst, data := new, bad := false }] l
        let s := if bad l then
            ({ (s.mergePush line (.add tgtBf16 tgtBf16 [] true) p) with ras := { s.ras with poisoned := s.ras.poisoned + b2n (!(s.lineAt line).2) } } : State)
          else s.mergePush line (.added v.1 v.2.1) p
        s.countWr (64 * line) 1) s
    else if dst % w = 0 then
      lines.foldl (fun s l =>
        let s := ((s.nearDel (x.line l / 64)).dropCue (x.line l / 64)).modOp id (fun o => { o with left := o.left + 1 })
        s.cvn (.opWr id) x.rng.regionId 0 (64 * l) p (.add tgtBf16 srcBf16 (addendLine tgtBf16 srcBf16 dst l add) (bad l))) s
    else
      let new := addRow tgtBf16 srcBf16 (s.opBytes o x dst (w * n)) add
      s.opStore id p x (lines.map (fun l =>
        let a := max dst (64 * l)
        let b := min (dst + w * n) (64 * l + 64)
        { off := a, data := if bad l then [] else slice new (a - dst) (b - a), bad := bad l }))

/-- A SRC line that feeds a line of the table is poisoned: the elements of the row that lie in that line (R176). -/
def State.feedsBad (s : State) (o : Op) (src : Opd) (row dst l w aw n : Nat) : Bool :=
  let a := (max dst (64 * l) - dst) / w
  let b := min n (ceilDiv (min (dst + w * n) (64 * l + 64) - dst) w)
  s.opBad o src (row + aw * a) (aw * (b - a))

/-- SCATTER_ADD: the rows in an order the module does not fix (R154, R176; DESIGN CHOICE, log 16). -/
def execScatterAdd (op : Nat) (s : State) : Out :=
  .next ((s.opTurn op 0x31 (fun s o =>
    match s.operand o 1, s.operand o 2, s.operand o 0 with
    | some tab, some ix, some src =>
      let t16 := bit o.flags 1
      let s16 := bit o.flags 0
      let tb := o.fieldAt 52 4 * (if t16 then 2 else 4)
      let sb := o.fieldAt 52 4 * (if s16 then 2 else 4)
      s.peekInputs o [ix.all] (fun s o =>
        let is := s.indices o ix
        let ok := is.filter (fun i => decide (i.2.1 < o.rows))
        let oob := is.length - ok.length
        let span := fun (i : Nat × Nat × Bool) => ((tab, tab.off + i.2.1 * tb, tb) : Span3)
        let merge := tab.rng.regionId != 0 && tab.off % (if t16 then 2 else 4) != 0
        s.withInputs o (ix.all :: src.all :: (if merge then ok.map span else [])) (if merge then [] else if tab.rng.regionId = 0 then ok.map span else []) true (fun s o =>
          let run := s.newRun
          let s := ((inOrder run.1 0 ok).map (·.2)).foldl (fun s i =>
            let dst := tab.off + i.2.1 * tb
            let marks := s
            s.scatterRow o.id o.part tab t16 s16 dst (s.opBytes o src (src.off + i.1 * sb) sb)
              (fun l => i.2.2 || marks.feedsBad o src (src.off + i.1 * sb) dst l (if t16 then 2 else 4) (if s16 then 2 else 4) (o.fieldAt 52 4))) run.2
          s.settleOp o.id (!bit o.flags 2 && oob != 0) oob))
    | _, _, _ => s)).settleTables)

end Sys2Proof.Machine
end

