-- ==== Sys2Proof/Machine/Compute.lean ====
section
/-! DEFINITION. GEMM, SIMSEARCH and RECIPE (R136, R137, R149 to R151, R164, R165, R169, R170, R178, R179, R194 to R196). -/

namespace Sys2Proof.Machine

/-! ### Issue slots (R137, R194) -/

/-- Charges issue slots of one kind over the clusters of a list, as evenly as whole slots go (DESIGN CHOICE, log 33). -/
def State.chargeOver (s : State) (cls p total : Nat) (cs : List Nat) : State :=
  let n := max cs.length 1
  ((List.range cs.length).zip cs).foldl (fun s x => s.charge cls x.2 p (total / n + b2n (decide (x.1 < total % n)))) s

/-- Matrix slots, over the clusters with a matrix unit in service (DESIGN CHOICE, log 33). -/
def State.chargeMatrix (s : State) (p total : Nat) : State :=
  s.chargeOver clsMatrix p total ((List.range 64).filter (fun c => (List.range 4).any (fun i => s.matrixOk (4 * c + i))))

/-- Vector slots that the spec does not tie to chunks, over the clusters with a vector unit in service (DESIGN CHOICE, log 33). -/
def State.chargeVector (s : State) (p total : Nat) : State := s.chargeOver clsVector p total ((List.range 64).filter s.vectorOk)

/-- The cluster whose vector unit does a cluster's vector work: its own, or when that is out of service another of its region's (R19, Table 1-2); without one in the region,
any (DESIGN CHOICE, log 33). -/
def State.vectorFor (s : State) (c : Nat) : Option Nat :=
  (((List.range 8).map (fun i => c / 8 * 8 + (c + i) % 8)) ++ List.range 64).find? s.vectorOk

/-- Vector slots of a recipe: each chunk runs on one vector unit, which takes its body's slots, and each unit that takes part takes the prologue's once; the module chooses
the unit of a chunk, here the clusters in service in turn (R185, R194; DESIGN CHOICE, log 33). -/
def State.chargeRecipe (s : State) (p : Nat) (img : Bytes) (chunks : Nat) : State :=
  let pb := rcSplit (rcProg img)
  let cs := (List.range 64).filter s.clusterOk
  let n := max cs.length 1
  let units := ((List.range cs.length).zip cs).filterMap (fun x => (s.vectorFor x.2).map (fun v => (v, chunks / n + b2n (decide (x.1 < chunks % n)))))
  (List.range 64).foldl (fun s v =>
    let mine := ((units.filter (fun u => u.1 == v)).map (·.2)).sum
    if mine = 0 then s else s.charge clsVector v p (slotsOf pb.2 * mine + slotsOf pb.1)) s

/-! ### Dot products (R136, R149 to R151) -/

/-- Products per dot group of two formats. -/
def groupOf (a b : Nat) : Nat := if a = 1 ∨ a = 2 ∨ b = 1 ∨ b = 2 then 16 else 32

/-- ARITH cycles that a matrix unit takes for the dot groups of 64 output elements: with MXFP4 it computes two groups of each in a cycle (R136). -/
def groupCycles (groups : Nat) (fp4 : Bool) : Nat := if fp4 then ceilDiv groups 2 else groups

/-- A row of a dot product: its groups of elements, each with the scale of its MX block; no scale: NaN. -/
abbrev DotRow := List (List FVal × Option Int)

/-- The row of `k` elements of a format in groups of `g`; `sc` are its scale bytes. -/
def dotRow (c k g : Nat) (bs sc : Bytes) : DotRow :=
  (List.range (ceilDiv k g)).map (fun i =>
    ((List.range (min g (k - g * i))).map (fun j => elemVal c (elemAt c bs (g * i + j))),
      if isMx c then e8m0 (leAt sc (g * i / 32) 1) else some 0))

/-- A dot group: the exact sum of its exact products, scaled, rounded once to FP32 (R149, R150). -/
def dotGroup (a b : List FVal × Option Int) : Nat :=
  match a.2, b.2 with
  | some x, some y =>
    match List.zipWith fmul a.1 b.1 with
    | [] => 0
    | p :: ps => f32Bits (fscale (ps.foldl fadd p) (x + y))
  | _, _ => fp32.nanBits

/-- FP32 addition, RNE. -/
def add32 (a b : Nat) : Nat := f32Bits (fadd (f32 a) (f32 b))

/-- Adds group sums into up to 64 partial accumulators, each from +0, and the partials, in the order of a run (R149, R151, R154). -/
def accumulate (run elem : Nat) (terms : List Nat) : Nat :=
  let parts := (inOrder run (2 * elem) terms).foldl (fun (t : Tab Nat) x =>
    tabSet t (x.1 % 64) (add32 (tabGet 0 t (x.1 % 64)) x.2)) []
  match (inOrder run (2 * elem + 1) parts).map (fun x => x.2.2) with
  | [] => 0
  | p :: ps => ps.foldl add32 p

/-- A dot product. -/
def dot (run elem : Nat) (a b : DotRow) : Nat := accumulate run elem (List.zipWith dotGroup a b)

/-! ### Rows of operands -/

/-- Spans of `rows` rows of an operand. -/
def rowSpans (x : Opd) (rows stride row : Nat) : List Span3 := (List.range rows).map (fun m => (x, x.off + m * stride, row))

/-- Bytes of a piece of an operand, and whether it was read with poison. -/
def State.piece (s : State) (o : Op) (x : Opd) (off len : Nat) : Bytes × Bool := (s.opBytes o x (x.off + off) len, s.opBad o x (x.off + off) len)

/-- Of an operand that is not there: no bytes, no poison. -/
def State.piece? (s : State) (o : Op) (x : Option Opd) (off len : Nat) : Bytes × Bool :=
  match x with
  | some x => s.piece o x off len
  | none => ([], false)

/-- Element i of a packed stream of a format of whole bytes, as an FP32 pattern (R186), and its poison. -/
def State.elemIn (s : State) (o : Op) (x : Option Opd) (fmt off : Nat) : Nat × Bool :=
  let n := elemBits fmt / 8
  let v := s.piece? o x off n
  (if fmt = 0 then leNat v.1 else f32Bits (elemVal fmt (leNat v.1)), v.2)

/-- A result element as a chunk: bits none leaves the element as it was, with poison if its guard was poisoned (R188, R192). -/
def elemChunk (fmt off : Nat) (v : Option Nat) (bad : Bool) : Chunk :=
  { off := off, data := match v with | some b => leBytes (elemBits fmt / 8) b | none => [], bad := bad }

/-! ### GEMM (R169) -/

/-- Rows of an operand of a GEMM with their MX scales, and whether each was read with poison. -/
def State.dotRows (s : State) (o : Op) (x : Opd) (sc : Option Opd) (c g rows k stride : Nat) : List (DotRow × Bool) :=
  (List.range rows).map (fun m =>
    let v := s.piece o x (m * stride) (elemBytes c k)
    let q := s.piece? o sc (m * (k / 32)) (k / 32)
    (dotRow c k g v.1 q.1, v.2 || q.2))

/-- The epilogue of output (m, n), or the plain conversion of the accumulator (R169, R196). -/
def State.gemmOut (s : State) (o : Op) (s1 s2 : Option Opd) (m n acc : Nat) (bad : Bool) : Option Nat × Bool :=
  let rnd := rndOf (bits o.flags 3 2)
  let i := m * o.gN + n
  let seed := o.extAt 24 8
  if o.rcp.isEmpty then (some (toElem o.gO rnd (bit o.flags 1) (f32 acc) (srInit seed i)).1, bad)
  else
    let w := elemBits o.gS / 8
    let env : RcEnv := {
      const := (List.range 16).map (rcConst o.rcp)
      input := [(acc, bad), s.elemIn o s1 o.gS (w * n), s.elemIn o s2 o.gS (m * o.gSs + w * n)]
      fmt := [0, o.gS, o.gS, o.gO]
      rnd := rnd
      sat := bit o.flags 1 }
    match (recipeRun o.rcp env seed i).find? (fun x => x.1 == 3) with
    | some x => (x.2.1, x.2.2)
    | none => (none, false)

/-- Issue slots of a GEMM: each slot is a dot group for 64 outputs, two of them for MXFP4 (R136, R137). -/
def Op.gemmSlots (o : Op) : Nat :=
  ceilDiv (o.gM * o.gN) 64 * groupCycles (ceilDiv o.gK (groupOf o.gX o.gW)) (o.gX == 10 && o.gW == 10)

/-- GEMM. -/
def execGemm (op : Nat) (s : State) : Out :=
  .next ((s.opTurn op 0x20 (fun s o =>
    match s.operand o 0, s.operand o 1, s.operand o 2 with
    | some x, some w, some out =>
      let s1 := if rcReads o.rcp 1 then s.operand o 6 else none
      let s2 := if rcReads o.rcp 2 then s.operand o 7 else none
      let sx := s.operand o 3
      let sw := s.operand o 4
      let rd := rowSpans x o.gM o.gXs (elemBytes o.gX o.gK) ++ rowSpans w o.gN o.gWs (elemBytes o.gW o.gK) ++
        (sx.toList ++ sw.toList ++ s1.toList).map Opd.all ++ s2.toList.flatMap (fun y => rowSpans y o.gM o.gSs (elemBytes o.gS o.gN))
      s.withInputs o rd (rowSpans out o.gM o.gOs (elemBytes o.gO o.gN)) true (fun s o =>
        let g := groupOf o.gX o.gW
        let xr := s.dotRows o x sx o.gX g o.gM o.gK o.gXs
        let wr := s.dotRows o w sw o.gW g o.gN o.gK o.gWs
        let run := s.newRun
        let cells := ((List.range o.gM).zip xr).flatMap (fun a => ((List.range o.gN).zip wr).map (fun b =>
          (a.1, b.1, s.gemmOut o s1 s2 a.1 b.1 (dot run.1 (a.1 * o.gN + b.1) a.2.1 b.2.1) (a.2.2 || b.2.2))))
        let cs := cells.map (fun c => elemChunk o.gO (out.off + c.1 * o.gOs + c.2.1 * (elemBits o.gO / 8)) c.2.2.1 c.2.2.2)
        let n := (cells.filter (fun c => match c.2.2.1 with | some b => elemSpecial o.gO b | none => false)).length
        let s := run.2.noteReduced o.id true
        let s := s.chargeMatrix o.part o.gemmSlots
        let s := if o.rcp.isEmpty then s else s.chargeRecipe o.part o.rcp (o.gM * ceilDiv o.gN 128)
        (s.opStore o.id o.part out cs).settleOp o.id false (min n (2 ^ 32 - 1)))
    | _, _, _ => s)).settleTables)

/-! ### RECIPE (R170, R195) -/

/-- RECIPE: every read precedes every write, so a write stream may equal a read stream. -/
def execRecipe (op : Nat) (s : State) : Out :=
  .next ((s.opTurn op 0x21 (fun s o =>
    let n := o.fieldAt 48 4
    let opd := fun (j : Nat) => if rcDir o.rcp j = 0 then none else s.operand o j
    let js := (List.range 8).filterMap (fun j => (opd j).map (fun x => (j, x)))
    s.withInputs o ((js.filter (fun x => rcReads o.rcp x.1)).map (fun x => x.2.all))
      ((js.filter (fun x => decide (2 ≤ rcDir o.rcp x.1))).map (fun x => x.2.all)) true (fun s o =>
        let fmts := (List.range 8).map (rcFmt o.rcp)
        let outs := (List.range n).map (fun i =>
          let env : RcEnv := {
            const := (List.range 16).map (rcConst o.rcp)
            input := (List.range 8).map (fun j => if rcReads o.rcp j then s.elemIn o (opd j) (rcFmt o.rcp j) (elemBits (rcFmt o.rcp j) / 8 * i) else (0, false))
            fmt := fmts
            rnd := rndOf (bits o.flags 3 2)
            sat := bit o.flags 1 }
          (i, recipeRun o.rcp env (o.fieldAt 32 8) i))
        let s := (s.noteReduced o.id true).chargeRecipe o.part o.rcp (ceilDiv n 128)
        let s := js.foldl (fun s x =>
          let cs := outs.flatMap (fun r => (r.2.filter (fun e => e.1 == x.1)).map (fun e =>
            elemChunk (rcFmt o.rcp x.1) (x.2.off + elemBits (rcFmt o.rcp x.1) / 8 * r.1) e.2.1 e.2.2))
          s.opStore o.id o.part x.2 cs) s
        s.settleOp o.id false 0))).settleTables)

/-! ### SIMSEARCH (R178, R179, Table 6-5) -/

/-- The score of a vector: DOT, L2 as ‖q‖² + ‖x‖² − 2 q·x, COS as q·x × rsqrt(‖q‖² × ‖x‖²). -/
def score (metric run elem : Nat) (q x : DotRow) : Nat :=
  let qx := dot run (3 * elem) q x
  if metric = 0 then qx
  else
    let qq := dot run (3 * elem + 1) q q
    let xx := dot run (3 * elem + 2) x x
    if metric = 1 then f32Bits (fsub (f32 (add32 qq xx)) (fmul (f32 qx) (.fin false 2 0)))
    else f32Bits (fmul (f32 qx) (f32 (frsq (f32Bits (fmul (f32 qq) (f32 xx))))))

/-- One (score, index) ranks before another: better score, then lower index (DEDUCED, log 60). -/
def ranksBefore (metric : Nat) (a b : Nat × Nat) : Bool :=
  let lt := if metric = 1 then fltNum (f32 a.1) (f32 b.1) else fltNum (f32 b.1) (f32 a.1)
  lt || (feqNum (f32 a.1) (f32 b.1) && decide (a.2 < b.2))

def insertRank (metric : Nat) (x : Nat × Nat) : List (Nat × Nat) → List (Nat × Nat)
  | [] => [x]
  | y :: t => if ranksBefore metric x y then x :: y :: t else y :: insertRank metric x t

/-- The K records of a query (R178). -/
def records (metric k base : Nat) (scored : List (Nat × Nat)) : Bytes :=
  let best := (((scored.filter (fun x => !isNan (f32 x.1))).foldl (fun acc x => insertRank metric x acc) []).take k)
  best.flatMap (fun x => leBytes 4 x.1 ++ leBytes 4 ((base + x.2) % 2 ^ 32)) ++
    (List.replicate (k - best.length) (leBytes 4 0x7FC00000 ++ leBytes 4 0xFFFFFFFF)).flatten

/-- SIMSEARCH. -/
def execSimsearch (op : Nat) (s : State) : Out :=
  .next ((s.opTurn op 0x38 (fun s o =>
    match s.operand o 0, s.operand o 1, s.operand o 2 with
    | some q, some x, some out =>
      let map := s.operand o 3
      let sx := s.operand o 4
      let sq := s.operand o 5
      let metric := bits o.flags 12 11
      let per := o.sD / 32
      s.peekInputs o (map.toList.map Opd.all) (fun s o =>
        -- with FILTER, a vector whose bit is clear, or unreadable, is not scored, and its bytes are not read
        let cand := (List.range o.sN).filter (fun j => match map with
          | some b => let v := s.piece o b (j / 8) 1; bit (leNat v.1) (j % 8) && !v.2
          | none => true)
        let rd := (map.toList ++ sq.toList).map Opd.all ++ [q.all] ++ cand.map (fun j => (x, x.off + j * o.sStride, o.sVec)) ++
          sx.toList.flatMap (fun y => cand.map (fun j => (y, y.off + j * per, per)))
        s.withInputs o rd [out.all] true (fun s o =>
          let g := groupOf o.sF o.sF
          let vec := fun (x : Opd) (sc : Option Opd) (stride j : Nat) =>
            let v := s.piece o x (j * stride) o.sVec
            let k := s.piece? o sc (j * per) per
            (dotRow o.sF o.sD g v.1 k.1, v.2 || k.2)
          let vs := (cand.map (fun j => (j, vec x sx o.sStride j))).filter (fun v => !v.2.2)
          let qs := (List.range o.sQ).map (fun i => (i, vec q sq o.sVec i))
          let run := s.newRun
          let recs := qs.map (fun a =>
            let scored := if a.2.2 then [] else vs.map (fun v => (score metric run.1 (a.1 * o.sN + v.1) a.2.1 v.2.1, v.1))
            ({ off := out.off + 8 * o.sK * a.1, data := records metric o.sK (o.extAt 28 4) scored, bad := false } : Chunk))
          let s := run.2.noteReduced o.id true
          let s := s.chargeMatrix o.part (ceilDiv (o.sQ * cand.length) 64 * groupCycles (ceilDiv o.sD g) (o.sF == 10))
          let s := s.chargeVector o.part (Config.vectorSlots 0x38 (o.sQ * cand.length))
          (s.opStore o.id o.part out recs).settleOp o.id false (if qs.all (·.2.2) then 0 else vs.length)))
    | _, _, _ => s)).settleTables)

end Sys2Proof.Machine
end

