-- ==== Sys2Proof/Machine/Cues.lean ====
section
/-! DEFINITION. The CUE_ registers and the cue runner (R89, R97 to R103, R105). -/

namespace Sys2Proof.Machine

/-! ### Writes of the CUE_ registers -/

/-- A write of LAYER v to CUE_CURTAIN (R97). -/
def State.curtainWrite (s : State) (p v : Nat) : State :=
  let h := (s.part p).cue
  if !h.loaded || decide (h.layerCount ≤ v) then s.badCue p
  else if v = h.cur then s.modCue p (fun h => { h with curtain := v })
  else (s.moveCurtain p v).settleTables

/-- CUE_CURTAIN. -/
def execCueCurtain (port ld value : Nat) (s : State) : Out :=
  match s.ldPart port ld with
  | none => .next s
  | some p => .next (s.curtainWrite p (value % 65536))

def cueSelectAddr : Nat := 0x03000008
def cueWeightAddr : Nat := 0x03000010

/-- A value of CUE_SELECT takes effect (Table 4-8). -/
def State.selectWrite (s : State) (p v : Nat) : State := (s.cueSelect p (bits v 63 48) (bits v 47 40) (bits v 7 0) (bit v 32)).settleTables

/-- A value of CUE_WEIGHT takes effect (Table 4-9). -/
def State.weightWrite (s : State) (p v : Nat) : State := (s.cueWeight p (bits v 63 48) (bits v 47 40) (bits v 31 0)).settleTables

/-- CUE_SELECT: the write takes effect with its upper half (R12, R98). -/
def execCueSelect (port ld : Nat) (acc : Access64) (s : State) : Out :=
  match s.ldPart port ld with
  | none => .next s
  | some p => match s.write64 (.ld port ld) cueSelectAddr 0 acc with
    | (some v, s) => .next (s.selectWrite p v)
    | (none, s) => .next s

/-- CUE_WEIGHT (R12, R99). -/
def execCueWeight (port ld : Nat) (acc : Access64) (s : State) : Out :=
  match s.ldPart port ld with
  | none => .next s
  | some p => match s.write64 (.ld port ld) cueWeightAddr 0 acc with
    | (some v, s) => .next (s.weightWrite p v)
    | (none, s) => .next s

/-! ### The cue runner (R100) -/

/-- A cue has a block that it may issue: it holds a place, is not HELD, is not an understudy of weight 0, and a BUFFER copy would find room (R99 to R101). -/
def State.cueReady (s : State) (p : Nat) (x : Nat × Cue) : Bool :=
  let c := x.2
  (c.st == .fetching || c.st == .late) && decide (c.issued < c.blocks) && !(c.understudy && c.weight == 0) &&
    (match s.cueBlk p c c.issued with
      | some blk => (s.bufferCopy p x.1 c blk).isSome
      | none => true)

/-- The cue of a sheet that issues next. -/
def State.nextCue (s : State) (p : Nat) : Option (Nat × Cue) :=
  let h := (s.part p).cue
  if h.loaded then h.first (h.idx.filter (s.cueReady p)) else none

/-- The block is not filled: it counts as placed and in CUE_SKIPPED_BLOCKS. -/
def State.skipCue (s : State) (p blk : Nat) : State := (s.skipBlk p).placeBlk p blk

/-- Issues block k of cue i: one that is resident or that another cue is reading is not fetched again; one that may not be filled is skipped (R101, R102). The
spec does not say which comes first for a resident block that may not be filled, as a NEAR cue's under STREAM: it counts as skipped (DESIGN CHOICE, log 136).
A BUFFER cue keeps room for its copy until the read ends. -/
def State.issueCue (s : State) (p i : Nat) (c : Cue) : State :=
  let k := c.issued
  let s := s.modCue p (fun h => h.modC i (fun c => { c with issued := k + 1 }))
  match s.cueAddr p c k with
  | none => s
  | some (r, idx, off) =>
    let blk := r.addr idx off / 4096
    let reading := (s.cueOut p blk).isSome
    let s := s.modCue p (fun h => h.modC i (fun c => { c with out := c.out ++ [k] }))
    if !s.cueMay p c r idx off then s.skipCue p blk
    else match s.nearFind blk with
      | some t =>
        let s := if t.st == NearSt.spec && s.ordinaryNames p blk then s.nearMod blk (fun t => { t with st := .clean }) else s
        s.cuePut p c blk (s.hintAt r idx off) (s.nearHeld blk t.sectors) (fun _ _ _ _ => none)
      | none =>
        let s := (s.bufferCopy p i c blk).getD s
        if reading || r.regionId == 0 then s
        else
          let early := (s.part p).cue.dist c != 0 || (s.part p).cue.curtain == 0xFFFF
          s.cvn (.cue p i k) r.regionId (s.regionSlot p r) off (actCue p) (.rd 64 (s.isSealed p idx) early)

/-- CUE_BLOCK_ISSUE: the next sheet in turn with a block ready, and not held back at its arbitration point, issues one block (R100). -/
def execCueBlockIssue (heldBack : List Nat) (s : State) : Out :=
  if !s.dataUp then .next s
  else
    let ps := (List.range 64).map (fun i => (s.mem.cueTurn + 1 + i) % 64)
    match ps.findSome? (fun p => if heldBack.contains p then none else (s.nextCue p).map (fun x => (p, x))) with
    | none => .next s
    | some (p, x) => .next (({ s with mem := { s.mem with cueTurn := p } } : State).issueCue p x.1 x.2).settleTables

/-- CUE_BLOCK_FILL: the read of a block of this module's deep tier completes at its home tag pipeline. A block whose recovery has opened is read again once it
has ended (Table 13-3); an understudy leaves a block with an uncorrectable error unfilled and to the scrubber, whose finding it is (R103). -/
def execCueBlockFill (part cue block : Nat) (errs : List SymErr) (s : State) : Out :=
  if !s.dataUp then .next s
  else match (s.part part).cue.cues[cue]? with
  | none => .next s
  | some c =>
    match s.cueAddr part c block with
    | none => .next s
    | some (r, idx, off) =>
      if !c.out.contains block || r.regionId != 0 then .next s
      else
        let blk := r.addr idx off / 4096
        let hint := s.hintAt r idx off
        if !s.cueMay part c r idx off then .next (s.skipCue part blk).settleTables
        else match s.nearFind blk with
        | some t => .next (s.cuePut part c blk hint (s.nearHeld blk t.sectors) (fun _ _ _ _ => none)).settleTables
        | none =>
          let ent := s.ent? blk
          let lines := (List.range (4 * (match ent with | some e => e.sectors | none => 16))).map (64 * blk + ·)
          let ask : DeepAsk := { line := 64 * blk, act := actCue part, rd := true }
          let q := if r.kind = 1 && !c.understudy then s.snoopSpan (64 * blk) 64 .data else (false, s)
          if q.1 then .next q.2
          else if q.2.deepStopped blk (actCue part) (64 * lines.length) || !q.2.deepTurn ask || q.2.ras.recov.any (fun x => x.block == blk) then .next q.2
          else
            let e := q.2.readDeepLines lines errs
            if e.1 = .locating then .next e.2
            else
              let s := e.2.grantDeep ask 0 lines.length
              let s := if ent.any (fun e => e.mode == modeLegacy) then s.countLegacy else s
              if e.1 = .uncorrectable ∧ c.understudy then .next (s.skipCue part blk).settleTables
              else if s.ras.recov.any (fun x => x.block == blk) then .next s
              else match s.aboveBytes blk with
                | .error d =>
                  if c.understudy || (tabFind s.ras.gone blk).isSome then .next (s.skipCue part blk).settleTables
                  else .next (s.damageBlk blk d false).settleTables
                | .ok bs =>
                  .next (s.cuePut part c blk hint (bs, s.lowPoison blk) (fun s st pin own => s.nearFill blk part st pin own)).settleTables

end Sys2Proof.Machine
end

