-- ==== Sys2Proof/Machine/Failures.lean ====
section
/-! DEFINITION. Failures of units, dies, ports, internal hops and die-to-die links, and what absorbs them (R18 to R20, R275, Tables 1-2, 13-4). -/

namespace Sys2Proof.Machine

/-- Level of a unit in a RAS record (Table 13-5). -/
def unitLevel : UnitId → Nat
  | .cluster _ | .scalar _ => 1
  | .region _ => 2
  | .dieA | .dieB => 3
  | .deepCtl _ | .hub => 4
  | _ => 0

/-- A unit of the module. -/
def unitExists : UnitId → Bool
  | .matrix n | .operandExpander n => decide (n < 256)
  | .vector n | .scalar n | .cluster n => decide (n < 64)
  | .nearCtl n => decide (n < 16)
  | .deepCtl n => decide (n < 16)
  | .egressExpander n | .cxlPort n | .region n => decide (n < 8)
  | .coldonPort n => decide (n < 4)
  | .dieA | .dieB | .hub => true

/-- The module is lost: the hub die, with its management subsystem, stops until the input is removed (Tables 1-2, 13-4); the loss is
reported first (R288) (DEDUCED, log 133). -/
def State.loseModule (s : State) : State :=
  let s := s.logRas { event := 0x18, sev := 3, level := 4 }
  let s := s.dataOff
  { s with mgmt := { s.mgmt with phase := .off } }

/-- The near-tier blocks of regions go with the regions: the lines of the dirty ones are poisoned over their deep-tier values (Table 13-4). -/
def State.loseNear (s : State) (gone : Nat → Bool) : State :=
  (s.mem.tags.filter (fun t => match s.home (4096 * t.blk) with
    | some r => gone r
    | none => false)).foldl (fun s t =>
    let s := s.nearDel t.blk
    if t.st = .dirty && !isLocal (4096 * t.blk) then (List.range 64).foldl (fun s i => s.setPoison (64 * t.blk + i) 0) s else s) s

/-- Drops the cue-area copies of some clusters; they are clean (Table 13-4). -/
def State.loseCueArea (s : State) (gone : Nat → Bool) : State :=
  { s with mem := { s.mem with cueArea := s.mem.cueArea.filter (fun (c : CueCopy) => !gone c.cluster) } }

def State.markFailed (s : State) (u : UnitId) : State := { s with ras := { s.ras with failed := s.ras.failed ++ [u] } }

/-- Every near-tier line of a stack. -/
def State.stackLines (s : State) (n : Nat) : List Nat :=
  (s.mem.tags.filter (fun t => match s.placeOf t.blk with
    | some (r, st) => 2 * r + st % 2 == n
    | none => false)).flatMap (fun t => (List.range 64).map (64 * t.blk + ·))

/-- A unit fails and is absorbed as Table 1-2 states; without any compute region left nothing can serve an address and the module is lost (R18, DEDUCED, log 30) (DEDUCED, log 124). -/
def State.failUnit (s : State) (u : UnitId) : State :=
  if !s.hubUp || !unitExists u || s.isFailed u then s
  else
    let s : State := match u with
      | .matrix _ | .operandExpander _ => (s.markFailed u).derate [2]
      | .vector _ => (s.markFailed u).derate [3]
      | .scalar n | .cluster n => ((s.loseCueArea (· == n)).markFailed u).derate [2, 3]
      | .egressExpander p => ({ s with mem := { s.mem with staging := tabDel s.mem.staging p } }).markFailed u
      | .cxlPort p => (if (s.port p).link == LinkSt.detect then s else s.portReset p 3).markFailed u
      | .coldonPort p => (s.coldonDown p).markFailed u
      | .nearCtl n =>
        let bad := s.stackLines n
        ((List.range 32).foldl (fun (s : State) pc => s.retirePc n pc bad) s).markFailed u
      | .region r => (((s.loseNear (· == r)).loseCueArea (fun c => c / 8 == r)).markFailed u).derate [0, 2, 3]
      | .dieA => (((s.loseNear (· < 4)).loseCueArea (· < 32)).markFailed u).derate [0, 2, 3]
      | .dieB => (((s.loseNear (4 ≤ ·)).loseCueArea (32 ≤ ·)).markFailed u).derate [0, 2, 3]
      | .deepCtl _ | .hub => s.loseModule
    if s.hubUp && s.mgmt.phase != .safe && !(List.range 8).any s.regionOk then s.loseModule else s.settleTables.pumpReqs

/-- A unit is declared failed: it is absorbed, and the loss is reported through HOP_FAILED, the only event of Table 13-5 for it, with the level that it
reaches; poisoned lines make it severity 2 (R18, R275, R288) (DEDUCED, log 133). -/
def State.reportFail (s : State) (u : UnitId) : State :=
  if !s.hubUp || !unitExists u || s.isFailed u then s
  else
    let t := s.failUnit u
    if t.mgmt.phase = .off then t
    else t.logRas { event := 0x18, sev := if s.ras.poisoned < t.ras.poisoned then 2 else 1, level := unitLevel u }

/-- UNIT_FAILURE (R19). -/
def execUnitFailure (u : UnitId) (s : State) : Out := .next (s.reportFail u)

/-! ### Die-to-die links (R20) -/

def d2dIdx : D2dLink → Nat
  | .aHub => 0
  | .bHub => 1
  | .aB => 2

/-- Failed replays in a row on a link. -/
def State.d2dRun (s : State) (l : D2dLink) : Nat := ((s.ras.d2dFails.find? (fun x => x.1 == l)).map (·.2)).getD 0

/-- D2D_REPLAY: a transfer is replayed; eight failures in a row of one transfer bring the link down. -/
def execD2dReplay (l : D2dLink) (ok : Bool) (s : State) : Out :=
  if !s.dataUp || s.ras.d2dDown.contains l then .next s
  else
    -- a forced failure of TST_REPLAY (Table 18-6)
    let forced := s.wq.tstReplay % 16 == 8 + d2dIdx l && bits s.wq.tstReplay 15 8 != 0
    let s := if forced then { s with wq := { s.wq with tstReplay := s.wq.tstReplay - 256 } } else s
    let n := if ok && !forced then 0 else s.d2dRun l + 1
    let rest := s.ras.d2dFails.filter (fun (x : D2dLink × Nat) => x.1 != l)
    .next { s with ras := { s.ras with d2dFails := if n = 0 then rest else rest ++ [(l, n)] } }

/-- A link is down: a compute-to-hub link takes its die with it; without A-to-B, traffic runs through the hub die. The loss is logged as HOP_FAILED
(DESIGN CHOICE, log 20). -/
def State.d2dDownNow (s : State) (l : D2dLink) : State :=
  let dirty := fun (lo hi : Nat) => s.mem.tags.any (fun t => t.st == .dirty && (match s.home (4096 * t.blk) with
    | some r => decide (lo ≤ r) && decide (r < hi)
    | none => false))
  let s' := match l with
    | .aHub => s.failUnit .dieA
    | .bHub => s.failUnit .dieB
    | .aB => s
  if s'.mgmt.phase = .off then s'
  else
    let poisoned := match l with
      | .aHub => dirty 0 4
      | .bHub => dirty 4 8
      | .aB => false
    ({ s' with ras := { s'.ras with d2dDown := s'.ras.d2dDown ++ [l], d2dFails := s'.ras.d2dFails.filter (fun (x : D2dLink × Nat) => x.1 != l) } }).logRas
      { event := 0x18, sev := 1 + b2n poisoned, level := 3, loc := d2dIdx l }

/-- D2D_LINK_DOWN: the eighth replay has failed, or the link has lost lock. -/
def execD2dLinkDown (l : D2dLink) (lostLock : Bool) (s : State) : Out :=
  if !s.dataUp || s.ras.d2dDown.contains l || !(lostLock || decide (8 ≤ s.d2dRun l)) then .next s
  else .next (s.d2dDownNow l)

/-! ### Internal hops (R275) -/

def State.hopRun (s : State) (u : UnitId) : Nat := ((s.ras.hopFails.find? (fun x => x.1 == u)).map (·.2)).getD 0

/-- HOP_REPLAY: a transfer to a unit is discarded and replayed, and counted. -/
def execHopReplay (u : UnitId) (ok : Bool) (s : State) : Out :=
  if !s.hubUp || s.isFailed u then .next s
  else
    let n := if ok then 0 else s.hopRun u + 1
    let rest := s.ras.hopFails.filter (fun (x : UnitId × Nat) => x.1 != u)
    .next { s with ras := { s.ras with hopReplays := s.ras.hopReplays + 1, hopFails := if n = 0 then rest else rest ++ [(u, n)] } }

/-- HOP_FAILED: eight replays in a row have failed; the receiving unit is declared failed and contained. -/
def execHopFailed (u : UnitId) (s : State) : Out :=
  if !s.hubUp || s.isFailed u || !unitExists u || decide (s.hopRun u < 8) then .next s
  else
    .next (({ s with ras := { s.ras with hopFails := s.ras.hopFails.filter (fun (x : UnitId × Nat) => x.1 != u) } } : State).reportFail u)

end Sys2Proof.Machine
end

