-- ==== Sys2Proof/Machine/Reload.lean ====
section
/-! DEFINITION. Reload (R135, R215, R232, R338 to R340, Tables 3-21, 16-17, 16-18). -/

namespace Sys2Proof.Machine

/-- Closes every session with a reason, and ends what it carried (R232). -/
def State.endSessions (s : State) (reason : Nat) : State :=
  let s := s.cld.sessions.foldl (fun s x => (s.closeSession x.peer reason).sessionLost x.peer false) s
  { s with cld := { s.cld with half := [] } }

/-- Takes down the operations of a partition without completions; they are counted in PART_ABORTS (R14, Table 3-21). -/
def State.abortOps (s : State) (p : Nat) : State :=
  let ops := s.opsOf p
  let s := ops.foldl (fun s o => s.stopWork o 1) s
  ({ s with disp := { s.disp with ops := s.disp.ops.filter (fun (o : Op) => o.part != p) } } : State).modPart p (fun x => { x with aborts := x.aborts + ops.length })

/-- Steps 2 to 4 of Table 16-17: the data plane stops. -/
def State.stopPlane (s : State) : State :=
  let s := s.vector0All .reloadStart
  let ps := s.pb.partitions.map (fun (p : PbPart) => p.num)
  -- RESET_COUNT and PART_ABORTS count from this reload on, whose own aborts are the first (Tables 3-4, 3-7) (DEDUCED, log 76)
  let s := ps.foldl (fun s p => s.modPart p (fun x => { x with st := 4, resetCount := 0, aborts := 0 })) s
  let s := s.endSessions 0
  let s := ps.foldl (fun s p => ((s.pb.ldsOf p).foldl (fun s i => s.declareDead i) s).endReqs p) s
  let s := ps.foldl (fun s p => (s.abortOps p).dropSheet p false) s
  let s := ((s.mem.tags.map (fun (t : NearBlk) => t.blk)).foldl (fun s b => s.evictBlk b) s).qDiscards (List.range 120)
  { s with
    disp := {}
    host := { s.host with reqs := [], snoop := [], bi := [] }
    mem := { s.mem with cueArea := [], staging := [] } }

/-- Starts the reload of a checked prompt book. From safe mode it runs steps 7 to 14 of Table 16-15 instead, with every port in Detect again (R337) (DEDUCED, log 77). -/
def State.startReload (s : State) (slot : Nat) (img : Bytes) (b : PromptBook) : State :=
  if s.mgmt.phase = .safe then
    let s := s.dataOff
    { s with
      clk := { s.clk with running := true }
      mgmt := { s.mgmt with phase := .booting, dataRails := true, fromSafe := true, reload := some (slot, img, b, true, true) } }
  else
    let changed := !sameLayout s.pb b
    let share := s.pb.moduleId != b.moduleId || s.pb.sharePct != b.sharePct
    let s := s.stopPlane
    ({ s with mgmt := { s.mgmt with rwlLocked := false, reload := some (slot, img, b, changed, share) } } : State).setPhase .reloading

/-- Key replacements that partition resets in progress would have made are made by the reload that takes them over (R80) (DEDUCED, log 76). -/
def State.finishResets (s : State) : State :=
  s.pb.partitions.foldl (fun s p => match (s.part p.num).reset with
    | some j => if j.newKey then s.replaceKey p.num (!j.sanitize) else s
    | none => s) s

/-- Step 5 of Table 16-17 when the layout changes: the partition part reads as zero, with the share when the membership changes (R339). -/
def State.clearLayout (s : State) (share : Bool) : State :=
  let s := s.clearValid 0 (if share then s.deepUser else s.shareBase)
  let top := (if share then s.deepUser else s.shareBase) / 4096
  { s with
    gol := {}
    ras := { s.ras with recov := s.ras.recov.filter (fun (r : Recov) => decide (top ≤ r.block)) }
    mem := { s.mem with erased := [], bmap := s.mem.bmap.filter (fun e => decide (top ≤ e.1) && !isLocal (4096 * e.1)) } }

/-- The Golas state that a reload restores from the metadata area: tables that a group names are LIVE, every other slot is FREE (R109, R135). -/
def State.restoreGolas (s : State) : State :=
  let s := { s with gol := { s.gol with sealedRanges := s.gol.sealedRanges.map (fun (r : SealedRange) => { r with queue := [], keep := [] }) } }
  { s with
    gol := { s.gol with slots := s.gol.slots.map (fun (x : Nat × GSlot) =>
      if x.2.st == 2 && !x.2.imp && s.named x.1 then (x.1, { x.2 with importers := [] })
      else (x.1, { x.2 with st := 0, owner := 0, lens := [], imp := false, dropped := false, importers := [] })) }
    mem := { s.mem with bmap := s.mem.bmap.filter (fun e => !isLocal (4096 * e.1)) } }

/-- A region goes on in service over a reload: its descriptor's DIGEST is the same (R218). -/
def State.sameRegion (s : State) (b : PromptBook) (rid : Nat) : Bool :=
  match s.pb.region? rid, b.region? rid with
  | some x, some y => x.digest == y.digest
  | _, _ => false

/-- What the cavern keeps over a reload: of a region with the same DIGEST its versions, its home and its epoch (R218); nothing under way. -/
def State.keepRegions (s : State) (b : PromptBook) : State :=
  { s with cav := { s.cav with
    regions := (s.cav.regions.filter (fun x => s.sameRegion b x.1)).map (fun x => (x.1, { x.2 with inq := [], stalled := [], rebuildLeft := [], rebuildBad := [] }))
    accs := [], remote := [], redns := [], heldReads := [], landing := [] } }

/-- The counters of a partition go on, RESET_COUNT and PART_ABORTS from the reload's own start; the rest of its run-time state is as at first use (Tables 3-7, 16-18). -/
def Part.afterReload (x : Part) : Part :=
  { x with st := 0, reset := none, pageHint := [], hintReg := [], evicting := [], evictPlaced := [], epochs := 0, cue := {}, pins := [], bg := none }

/-- RELOAD_COMPLETE: steps 5 to 7 of Table 16-17. -/
def execReloadComplete (s : State) : Out :=
  match s.mgmt.phase, s.mgmt.reload with
  | .reloading, some (slot, img, b, changed, share) =>
    let old := s.pb
    let oldParts := s.parts
    let s := s.finishResets
    let s := if changed then s.clearLayout share else s.restoreGolas
    let s := s.keepRegions b
    let fresh := b.regions.filter (fun g => share || !(old.region? g.rid).any (fun x => x.digest == g.digest))
    let s := { s with mgmt := { s.mgmt with pbImage := img, reload := none } }
    let s := s.applyFields b
    let s := if changed then b.partitions.foldl (fun s (p : PbPart) => s.newKey p.num) s else s
    let s := s.firstUse
    let s := s.takeUnits fresh
    let s := { s with parts := s.parts.map (fun (x : Nat × Part) =>
      let y := (tabFind oldParts x.1).getD {}
      (x.1, if changed then { x.2 with aborts := y.aborts } else y.afterReload)) }
    -- decoders of LDs whose assignment changes
    let s := (List.range 128).foldl (fun s i => if old.partOfLd i != b.partOfLd i then s.modLd i (fun l => { l with decoders := [] }) else s) s
    -- this module's own pins and reservations ended with its partitions' state (R215)
    let s := (s.endModule old.moduleId).setPhase .up
    let s := { s with mgmt := { s.mgmt with upAt := s.mgmt.upAt.orElse (fun _ => some s.clk.mgmt) } }
    let s := (s.vector0All .reloadEnd).logEv .reload 0xFF slot (b2n changed) 0
    .next s.sendHellos
  | _, _ => .next s

end Sys2Proof.Machine
end

