-- ==== Sys2Proof/Machine/Mgmt.lean ====
section
/-! DEFINITION. Management commands, the callboard's readers, PLDM, firmware update and the watchdog (R315, R316, R325, R326, R338, R341 to R355). -/

namespace Sys2Proof.Machine

/-! ### Requests and responses (R342, R343) -/

/-- What a management command answers. -/
structure CmdRes where
  s : State
  status : Nat := stOk
  cause : Nat := causeNone
  reply : Reply := { code := 0 }
deriving DecidableEq, Repr

/-- Kinds of a STATUS that the spec leaves open (DESIGN CHOICE, log 28). -/
def openState : Nat := 0
def openReload : Nat := 1
def openSignature : Nat := 2

/-- The module's state forbids the command: CAUSE STATE (R343); the STATUS with it is open (DESIGN CHOICE, log 28). -/
def CmdRes.state (s : State) : CmdRes := { s := s, status := openStatus openState, cause := causeState }

/-- A payload field outside its range (R343). -/
def CmdRes.range (s : State) : CmdRes := { s := s, status := stBadDescriptor, cause := causeRange }

/-- Takes a management request: discarded and counted when it names an LD other than the FM-owned LD, and not answered while the processor is held, in
recovery, or behind a link that is down; otherwise `f` acts and the response is sent (R342, R343). -/
def State.mgmtReq (s : State) (m : MgmtHdr) (code : Nat) (secure : Bool) (f : State → CmdRes) : State :=
  if !s.mgmtUp || s.mgmt.phase == .recovery then s
  else
    let go :=
      if secure && !m.secured then s.emit (.mgmt m.path code m.tag stNoPermission causeSession { code := 0 })
      else
        let r := f s
        r.s.emit (.mgmt m.path code m.tag r.status r.cause r.reply)
    let link := fun (p : Nat) => s.hubUp && decide (p < 8) && (s.port p).link == .l0
    match m.path with
    | .i3c => go
    | .cxlFm p => if link p then go else s
    | .cxlLd p l =>
      if !(link p && s.ldEnabled p l) then s
      else match s.pb.partOfLd (ldIdx p l) with
        | some q => s.noPerm q
        | none => s

/-! ### Resets, reload, epochs (R92, R218, R306, R338) -/

/-- RESET_PARTITION (Table 17-1, R78); during a reload it joins it (R80) (DESIGN CHOICE, log 43). -/
def execResetPartition (m : MgmtHdr) (part : Nat) (s : State) : Out :=
  .next (s.mgmtReq m 0x01 false (fun s =>
    if !s.pb.hasPart part then CmdRes.state s
    else if s.dataUp then { s := s.startPartReset part ((s.pb.part? part).map (·.keyOnReset) |>.getD false) false false }
    else if s.mgmt.phase = .reloading then { s := s.logEv .partReset part 0 0 0 }
    else CmdRes.state s))

/-- MODULE_RESET, cause 2. -/
def execModuleReset (m : MgmtHdr) (s : State) : Out := .next (s.mgmtReq m 0x02 false (fun s => { s := s.boot 2 }))

/-- MODULE_RESTART, cause 3: refused unless TRIPPED is 1 and every sensor reads below 95 °C (R306). -/
def execModuleRestart (m : MgmtHdr) (s : State) : Out :=
  .next (s.mgmtReq m 0x03 false (fun s =>
    if !s.pwr.tripped || s.pwr.sensors.any (fun x => decide (95 * 16 ≤ x.2)) then CmdRes.state s
    else { s := ({ s with pwr := { s.pwr with tripped := false, tripSensor := 0 } } : State).boot 3 }))

/-- RELOAD of a slot's prompt book (R338) (DEDUCED, log 74). -/
def execReload (m : MgmtHdr) (slot : Nat) (s : State) : Out :=
  .next (s.mgmtReq m 0x04 false (fun s =>
    if 2 ≤ slot then CmdRes.range s
    else if s.mgmt.phase = .reloading || s.mgmt.fromSafe then { s := s, status := stConflict, cause := causeBusy }
    else if !(s.dataUp || s.mgmt.phase == .safe) then CmdRes.state s
    else match s.checkSlot slot with
      | .good b => { s := s.startReload slot (s.nor slot).pb b }
      | .bad r f => { s := s.logPbFail f, status := openStatus openReload, reply := { code := r, vals := (match f with
          | some f => [f.code, f.typ, f.idx]
          | none => []) } }))

/-- Halves every page's access counters, rounding down (R92). -/
def State.epochAll (s : State) : State :=
  let half := fun (t : Tab Nat) => (t.map (fun x => (x.1, x.2 / 2))).filter (fun x => x.2 != 0)
  { s with
    mem := { s.mem with rdCnt := half s.mem.rdCnt, wrCnt := half s.mem.wrCnt }
    parts := s.parts.map (fun (x : Nat × Part) => (x.1, { x.2 with epochs := x.2.epochs + 1 })) }

/-- EPOCH (R92). -/
def execEpoch (m : MgmtHdr) (s : State) : Out :=
  .next (s.mgmtReq m 0x05 false (fun s => if s.dataUp then { s := s.epochAll } else CmdRes.state s))

/-- CAVERN_PROMOTE: refused unless this module is the region's ALT_HOME (R218). -/
def execCavernPromote (m : MgmtHdr) (rid : Nat) (s : State) : Out :=
  .next (s.mgmtReq m 0x06 false (fun s =>
    match s.pb.region? rid with
    | some g => if s.dataUp && g.kind == 1 && g.altHome == s.pb.moduleId then { s := s.promote g } else CmdRes.state s
    | none => CmdRes.state s))

/-! ### Time (R346) -/

/-- TIME_SET. -/
def execTimeSet (m : MgmtHdr) (t : Nat) (s : State) : Out :=
  .next (s.mgmtReq m 0x07 false (fun s =>
    let old := s.mgmt.timeOffset
    let s := { s with mgmt := { s.mgmt with timeOffset := ((t % 2 ^ 64 : Nat) : Int) - ((2 * s.clk.mgmt : Nat) : Int), timeKnown := true } }
    { s := s.logEv .timeSet 0xFF 0 0 (old % (2 ^ 64 : Int)).toNat }))

/-! ### Bookmarks (R350) -/

/-- What LOG_BMK[b] holds: LOG_OLDEST as restored until it is moved (Table 17-6). -/
def State.bookmark (s : State) (b : Nat) : Nat := tabGet s.mgmt.logBase s.mgmt.bmk b

def State.setBookmark (s : State) (b v : Nat) : State := { s with mgmt := { s.mgmt with bmk := tabSet s.mgmt.bmk b v } }

/-- A SEQ from LOG_OLDEST to LOG_NEXT. -/
def State.seqInLog (s : State) (v : Nat) : Bool :=
  decide (v < 2 ^ 32) && decide ((s.mgmt.logNext + 2 ^ 32 - v) % 2 ^ 32 ≤ s.mgmt.log.length)

/-- Where a reader at SEQ `v` stands: how many entries it has lost, and the entries from there on. -/
def State.logFrom (s : State) (v : Nat) : Nat × List LogEnt :=
  let behind := (s.mgmt.logNext + 2 ^ 32 - v) % 2 ^ 32
  let n := s.mgmt.log.length
  if n < behind then (behind - n, s.mgmt.log) else (0, s.mgmt.log.drop (n - behind))

/-- LOG_READ: up to `count` entries from a bookmark on, with LOST; the bookmark moves past them. -/
def execLogRead (m : MgmtHdr) (bookmark count : Nat) (s : State) : Out :=
  .next (s.mgmtReq m 0x08 false (fun s =>
    if 8 ≤ bookmark ∨ count = 0 ∨ 64 < count then CmdRes.range s
    else
      let r := s.logFrom (s.bookmark bookmark)
      let es := r.2.take count
      let first := (s.mgmt.logNext + 2 ^ 32 - r.2.length) % 2 ^ 32
      { s := s.setBookmark bookmark ((first + es.length) % 2 ^ 32),
        reply := { code := 0, vals := [r.1], data := es.flatMap LogEnt.bytes } }))

/-- BOOKMARK_SET. -/
def execBookmarkSet (m : MgmtHdr) (bookmark mode seq : Nat) (s : State) : Out :=
  .next (s.mgmtReq m 0x09 false (fun s =>
    if 8 ≤ bookmark ∨ 3 ≤ mode then CmdRes.range s
    else if mode = 0 then { s := s.setBookmark bookmark s.mgmt.logOldest }
    else if mode = 1 then { s := s.setBookmark bookmark (if s.mgmt.log.isEmpty then s.mgmt.logNext else (s.mgmt.logNext + 2 ^ 32 - 1) % 2 ^ 32) }
    else if s.seqInLog seq then { s := s.setBookmark bookmark seq }
    else CmdRes.range (s.badAccess 0xFF seq)))

/-- Register-space address of LOG_BMK[b] (Tables 17-6, 21-2). -/
def logBmkAddr (b : Nat) : Nat := 0x100E00000 + 0x100 + 4 * b

/-- LOG_BMK_WRITE; a requester without rights is refused (R391). -/
def execLogBmkWrite (rq : Requester) (bookmark value : Nat) (s : State) : Out :=
  if !s.mgmtUp || s.mgmt.phase == .recovery || decide (8 ≤ bookmark) then .next s
  else if !s.mgmtRights rq then .next (s.badAccess (s.rqPart rq) (logBmkAddr bookmark))
  else if s.seqInLog value then .next (s.setBookmark bookmark value)
  else .next (s.badAccess (s.rqPart rq) (logBmkAddr bookmark))

/-! ### Firmware (R317, R352 to R355) -/

/-- The running trial slot becomes ACTIVE (R354). -/
def State.commitTrial (s : State) : State :=
  let n := s.mgmt.slot
  let svn := (s.nor n).svn
  let s := s.modNor n (fun x => { x with fwSt := .active, commitSeq := (s.nor (1 - n)).commitSeq + 1 })
  ({ s with sec := { s.sec with fwSvn := max s.sec.fwSvn svn }, mgmt := { s.mgmt with trial := false } } : State).logEv .fwCommitted 0xFF n svn 0

/-- FW_COMMIT: refused unless a trial slot runs and MODULE_UP has passed (R354). -/
def execFwCommit (m : MgmtHdr) (s : State) : Out :=
  .next (s.mgmtReq m 0x0A false (fun s => if s.mgmt.trial && s.mgmt.upAt.isSome then { s := s.commitTrial } else CmdRes.state s))

/-- TRIAL_COMMIT_TIMEOUT: 600 s after MODULE_UP (R354). -/
def execTrialCommitTimeout (s : State) : Out :=
  match s.mgmt.upAt with
  | some t => if s.mgmt.trial && decide (t + 600 * mgmtHz ≤ s.clk.mgmt) then .next s.commitTrial else .next s
  | none => .next s

/-- COMPONENT_TRANSFER: PLDM programs a part of a component. Component 1 targets the slot that does not run, or slot A in recovery; component 2 either
slot (R353, R355). Bytes skipped read as erased (PRESUMED, log 81). -/
def execComponentTransfer (component slot off : Nat) (data : Bytes) (s : State) : Out :=
  let rec' := s.mgmt.phase == .recovery
  let allowed := s.mgmtUp && decide (slot < 2) &&
    (if component = 1 then (if rec' then slot == 0 else slot != s.mgmt.slot) else component == 2 && !rec')
  if !allowed then .next s
  else
    let fresh := s.mgmt.xfer != some (component, slot)
    let size := if component = 1 then 33554432 else 16777216
    let put := fun (old : Bytes) =>
      let old := if fresh then [] else old
      let d := data.take (size - off)
      if d.isEmpty then old else putAt (old ++ List.replicate (off - old.length) 0xFF) off d
    let s := s.modNor slot (fun x => if component = 1 then { x with fw := put x.fw } else { x with pb := put x.pb })
    .next { s with mgmt := { s.mgmt with xfer := some (component, slot) } }

/-- VERIFY_COMPLETE: the transferred component is checked (R353); in recovery the image is booted (R355). -/
def execVerifyComplete (component slot : Nat) (s : State) : Out :=
  if !s.mgmtUp || s.mgmt.xfer != some (component, slot) then .next s
  else
    let s := { s with mgmt := { s.mgmt with xfer := none } }
    let rec' := s.mgmt.phase == .recovery
    if component = 1 then
      let img := (s.nor slot).fw
      let svn := imageSvn img
      if s.fwOk img then
        let s := s.modNor slot (fun x => { x with fwSt := .trial, tries := 0, svn := svn })
        if rec' then
          .next (({ s with mgmt := { s.mgmt with recovering := true } } : State).emit (.pldm { code := 0 })).bootSlots
        else .next ((s.logEv .fwWritten 0xFF slot svn 0).emit (.pldm { code := 0 }))
      else
        let s := (s.modNor slot (fun x => { x with fwSt := .invalid, svn := svn })).emit (.pldm { code := 1 })
        .next (if rec' then s else s.logEv .fwRefused 0xFF slot svn 0)
    else match s.checkSlot slot with
      | .good _ => .next (s.emit (.pldm { code := 0 }))
      | .bad r f =>
        let s := (s.logPbFail f).logEv .fwRefused 0xFF slot (leAt (s.nor slot).pb 12 4) 0
        .next (s.emit (.pldm { code := 1, vals := r :: (match f with
          | some f => [f.code, f.typ, f.idx]
          | none => []) }))

/-- ACTIVATE_FIRMWARE: a module reset, cause 4, into the TRIAL slot; Coldon sessions are closed and the keys zeroized (R323, R353). -/
def execActivateFirmware (s : State) : Out :=
  if !s.mgmtUp || s.mgmt.phase == .recovery || !([0, 1].any (fun n => (s.nor n).fwSt == .trial && n != s.mgmt.slot)) then .next s
  else .next ((s.closeAll 1).boot 4)

/-- SET_EVENT_RECEIVER (R345). -/
def execSetEventReceiver (eid : Nat) (s : State) : Out :=
  if !s.mgmtUp || s.mgmt.phase == .recovery then .next s
  else .next ({ s with mgmt := { s.mgmt with eventEid := some eid } } : State)

/-! ### Watchdog and mirrors (R341, R349) -/

/-- A change of operating point has begun and has not reached every pair (R271, R300). -/
def State.changeRuns (s : State) : Bool :=
  (List.range 8).any (fun p => (s.ctl (.deep p)).changing || (s.ctl (.deep p)).opCur != (s.ctl (.deep 0)).opCur)

/-- MGMT_WATCHDOG: layer 2 has not served the watchdog for 100 ms; the processor restarts with the levels held. The second time in a trial boot the slot is
given up (R354) (DEDUCED, log 42). -/
def execMgmtWatchdog (s : State) : Out :=
  if !s.mgmtUp || s.mgmt.phase == .recovery then .next s
  else
    let s := { s with
      pwr := { s.pwr with held := true, levelA := 38, levelB := 38, levelHub := 43 }
      mgmt := { s.mgmt with wdFires := s.mgmt.wdFires + 1 } }
    -- level 43 includes OP 3 (Table 14-2)
    let s := if s.changeRuns then s else (List.range 8).foldl (fun s k => s.modCtl (.deep k) (fun c => { c with opTarget := 3 })) s
    let s := s.logEv .mgmtRestart 0xFF 0 0 0
    .next (if s.mgmt.trial && decide (2 ≤ s.mgmt.wdFires) then s.dropTrial else s)

/-- CALLBOARD_MIRROR_WRITE: the next entry in SEQ order goes to a device's mirror of 4,096 slots in two sectors; writing the first slot of a sector erases
the sector first. While PLDM programs the device its mirror waits. -/
def execCallboardMirrorWrite (dev : Nat) (s : State) : Out :=
  let waits := match s.mgmt.xfer with
    | some x => x.2 == dev
    | none => false
  if 2 ≤ dev || !s.mgmtUp || s.mgmt.phase == .recovery || waits then .next s
  else
    let from' := if dev = 0 then s.mgmt.mirrorNext.1 else s.mgmt.mirrorNext.2
    -- entries the ring has overwritten before they were mirrored are lost
    let r := s.logFrom from'
    match r.2 with
    | [] => .next s
    | e :: _ =>
      let old := (s.nor dev).mirror
      let old := if e.seq % 2048 = 0 then old.filter (fun (x : LogEnt) => x.seq / 2048 % 2 != e.seq / 2048 % 2) else old
      let s := s.modNor dev (fun x => { x with mirror := old ++ [e] })
      let n := (e.seq + 1) % 2 ^ 32
      .next { s with mgmt := { s.mgmt with mirrorNext := if dev = 0 then (n, s.mgmt.mirrorNext.2) else (s.mgmt.mirrorNext.1, n) } }

/-! ### Unknown codes (R343) -/

/-- The codes of Table 17-1. -/
def mgmtCodes : List Nat := [1, 2, 3, 4, 5, 6, 7, 8, 9, 10, 0x10, 0x11, 0x20, 0x21, 0x22, 0x23, 0x24, 0x25]

/-- UNKNOWN_COMMAND. -/
def execUnknownCommand (m : MgmtHdr) (code : Nat) (s : State) : Out :=
  if mgmtCodes.contains code then .next s else .next (s.mgmtReq m (code % 256) false CmdRes.range)

/-! ### Ownership and debug (R314 to R316, R325, R326) -/

/-- A refused signature, serial number, nonce or token: the STATUS is open (DESIGN CHOICE, log 28). -/
def CmdRes.refused (s : State) : CmdRes := { s := s, status := openStatus openSignature }

/-- Steps 1 to 3 of R326: sessions are closed with REASON 2, keys are zeroized, IDE streams become Insecure, and the module resets with cause 5. -/
def State.unlockReset (s : State) : State :=
  let s := s.closeAll 2
  let ins := fun (x : Ide) => if x.st = .none then x else { x with st := .insecure }
  let s := { s with
    sec := { s.sec with keysLive := false, partKey := [], metaKey := [], cavKey := [] }
    host := { s.host with ports := s.host.ports.map (fun (x : Nat × Port) =>
      (x.1, { x.2 with cachemem := ins x.2.cachemem, ioLink := ins x.2.ioLink, selective := x.2.selective.map (fun (y : Nat × Ide) => (y.1, ins y.2)) })) } }
  s.boot 5

/-- OWNER_CLAIM (R314). -/
def execOwnerClaim (m : MgmtHdr) (key sig : Bytes) (s : State) : Out :=
  .next (s.mgmtReq m 0x20 true (fun s =>
    if s.sec.claimed then CmdRes.state s
    else if !ecdsaVerify key (sha512 Config.serial) sig then CmdRes.refused s
    else { s := ({ s with sec := { s.sec with claimed := true, bank := 0, hashes := tabSet s.sec.hashes 0 (sha512 key) } } : State).logEv
             .ownerClaimed 0xFF 0 0 0 }))

/-- OWNER_TRANSFER (R315, R326). -/
def execOwnerTransfer (m : MgmtHdr) (newHash serial nonce sig : Bytes) (s : State) : Out :=
  .next (s.mgmtReq m 0x21 true (fun s =>
    if !s.sec.claimed || decide (3 ≤ s.sec.bank) then CmdRes.state s
    else if serial != Config.serial || s.sec.nonce != some nonce || !Config.ownerVerify s.ownerHash (sha512 (newHash ++ serial ++ nonce)) sig then
      CmdRes.refused s
    else
      let n := s.sec.bank + 1
      let s := { s with sec := { s.sec with bank := n, hashes := tabSet s.sec.hashes n newHash } }
      { s := s.unlockReset.logEv .ownerTransferred 0xFF 0 0 0 }))

/-- COSIGN_SET (R316). -/
def execCosignSet (m : MgmtHdr) (sig : Bytes) (s : State) : Out :=
  .next (s.mgmtReq m 0x22 true (fun s =>
    if !s.sec.claimed then CmdRes.state s
    else if !Config.cosignVerify s.ownerHash sig then CmdRes.refused s
    else { s := ({ s with sec := { s.sec with cosign := true } } : State).logEv .cosignSet 0xFF 0 0 0 }))

/-- DEBUG_CHALLENGE (R325). -/
def execDebugChallenge (m : MgmtHdr) (s : State) : Out :=
  .next (s.mgmtReq m 0x23 true (fun s =>
    let n := s.drawBytes 32
    { s := { n.2 with sec := { n.2.sec with nonce := some n.1 } }, reply := { code := 0, data := n.1 } }))

/-- SCOPE of a token (Table 15-4). -/
def tokenScope (t : Bytes) : Nat := leAt t 1 1 % 8

/-- A debug token is accepted (R325, R326) (DEDUCED, log 44). -/
def State.tokenOk (s : State) (t : Bytes) : Bool :=
  let d := sha512 (slice t 0 64)
  t.length == 328 && leAt t 0 1 == 1 && decide (leAt t 1 1 < 8) && zeroAt t 2 14 && tokenScope t != 0 &&
    slice t 16 16 == Config.serial && s.sec.nonce == some (slice t 32 32) && ecdsaVerify Config.eofanerKey d (slice t 64 132) &&
    (!s.sec.claimed || Config.ownerVerify s.ownerHash d (slice t 196 132))

/-- DEBUG_UNLOCK (R325, R326). -/
def execDebugUnlock (m : MgmtHdr) (token : Bytes) (s : State) : Out :=
  .next (s.mgmtReq m 0x24 true (fun s =>
    if !s.tokenOk token then CmdRes.refused s
    else
      let c := tokenScope token
      let s := s.unlockReset
      let s := { s with sec := { s.sec with
        nonce := none, dbgData := s.sec.dbgData || bit c 2, dbgMgmt := s.sec.dbgMgmt || bit c 1, dbgUart := s.sec.dbgUart || bit c 0 } }
      { s := s.logEv .debugUnlocked 0xFF c 0 0 }))

/-- DEBUG_LOCK (R326). -/
def execDebugLock (m : MgmtHdr) (s : State) : Out :=
  .next (s.mgmtReq m 0x25 true (fun s =>
    { s := ({ s with sec := { s.sec with dbgData := false, dbgMgmt := false, dbgUart := false } } : State).logEv .debugLocked 0xFF 0 0 0 }))

end Sys2Proof.Machine
end

