-- ==== Sys2Proof/Machine/CxlCaps.lean ====
section
/-! DEFINITION. What a logical device advertises: its identification, DVSECs and capability structures, and the CXL window of BAR0 (R36, R58, Table 2-6). -/

namespace Sys2Proof.Machine

/-- The configuration space of a logical device, as far as Table 2-6 states it. -/
structure Identity where
  vendor : Nat
  device : Nat
  classCode : Nat
  /-- IDs of the DVSECs of vendor 0x1E98. -/
  dvsecs : List Nat
  memCapable : Bool
  cacheCapable : Bool
  ioCapable : Bool
  hdmCount : Nat
  flit68 : Bool
  flit256 : Bool
  latencyOptimized : Bool
  /-- BAR0 offset of the component and device registers (Register Locator). -/
  registersAt : Nat
  ldsSupported : Nat
  componentCaps : List Nat
  deviceCaps : List Nat
  decoders : Nat
deriving DecidableEq, Repr

/-- Every LD presents the same values, and no other DVSEC or capability ID (R58): what Table 2-1 calls not supported is in none of them (R36). -/
def ldIdentity : Identity :=
  { vendor := 0x1F3E, device := 0x0D01, classCode := 0x050210, dvsecs := [0x0000, 0x0007, 0x0008, 0x0009, 0x000A],
    memCapable := true, cacheCapable := false, ioCapable := true, hdmCount := 2, flit68 := false, flit256 := true, latencyOptimized := false,
    registersAt := 0, ldsSupported := 16, componentCaps := [0x0002, 0x0004, 0x0005, 0x0007, 0x000C],
    deviceCaps := [0x0001, 0x0002, 0x4000], decoders := 8 }

/-- Interleave granularity and ways of a decoder as CXL 3.1 encodes them (PRESUMED, log 22). -/
def granCode (g : Nat) : Nat := (g / 256).log2

def waysCode (w : Nat) : Nat := if w % 3 = 0 then 8 + (w / 3).log2 else w.log2

/-- A decoder's registers, by dword (PRESUMED, log 22). -/
def Decoder.dword (d : Decoder) (k : Nat) : Nat :=
  if k = 0 then bits d.base 31 28 * 2 ^ 28
  else if k = 1 then d.base / 2 ^ 32 % 2 ^ 32
  else if k = 2 then bits d.size 31 28 * 2 ^ 28
  else if k = 3 then d.size / 2 ^ 32 % 2 ^ 32
  else if k = 4 then
    fld (granCode d.gran) 4 0 + fld (waysCode d.ways) 4 4 + fld (b2n d.committed) 1 9 + fld (b2n d.committed) 1 10 + fld (b2n d.err) 1 11 +
      fld (b2n d.bi) 1 13
  else if k = 5 then bits d.skip 31 28 * 2 ^ 28
  else if k = 6 then d.skip / 2 ^ 32 % 2 ^ 32
  else 0

/-- Media Status reports Ready, or Disabled in safe mode (Table 2-6); its place is that of CXL 3.1 (PRESUMED, log 22). -/
def State.mediaStatus (s : State) : Nat := if s.mgmt.phase = .safe then 3 else 1

/-- A dword of the CXL window whose value Table 2-6 or a decoder gives: the device capabilities array at 0, the component capabilities of the
CXL.cachemem primary range at 0x1000, the decoders, and Media Status. The places are those of CXL 3.1 (PRESUMED, log 22). -/
def State.cxlDword (s : State) (i off : Nat) : Option Nat :=
  if off = 0 then some (2 ^ 16)
  else if off = 4 then some ldIdentity.deviceCaps.length
  else if 0x10 ≤ off ∧ off < 0x10 + 0x10 * ldIdentity.deviceCaps.length then
    let id := ldIdentity.deviceCaps[off / 16 - 1]?.getD 0
    some (if off % 16 = 0 then id + 2 ^ 16 else if off % 16 = 4 then 0x100 * (off / 16) else if off % 16 = 8 then (if id = 2 then 0x20 + 4096 else 8) else 0)
  else if off = 0x300 then some (fld s.mediaStatus 2 2 + fld 1 1 4)
  else if off = 0x1000 then some (1 + 2 ^ 16 + 2 ^ 20 + ldIdentity.componentCaps.length * 2 ^ 24)
  else if 0x1004 ≤ off ∧ off < 0x1004 + 4 * ldIdentity.componentCaps.length then
    let k := (off - 0x1004) / 4
    some (ldIdentity.componentCaps[k]?.getD 0 + 2 ^ 16 + (0x100 * (k + 1)) * 2 ^ 20)
  else if off = 0x1300 then some 4
  else if 0x1310 ≤ off ∧ off < 0x1310 + 0x20 * ldIdentity.decoders then
    some ((tabGet {} (s.ld i).decoders ((off - 0x1310) / 0x20)).dword ((off - 0x1310) % 0x20 / 4))
  else none

/-- A dword of the CXL window; a register whose value the spec does not state gives a free value (DESIGN CHOICE, log 7). -/
def State.cxlRead32 (s : State) (i off : Nat) : Nat × State :=
  match s.cxlDword i off with
  | some v => (v % 2 ^ 32, s)
  | none => let r := s.draw; (r.1.toNat % 2 ^ 32, r.2)

/-- A read of the CXL window, of one dword or two. -/
def State.cxlRead (s : State) (i off size : Nat) : Nat × State :=
  let a := s.cxlRead32 i off
  if size = 4 then a
  else
    let b := a.2.cxlRead32 i (off + 4)
    (b.1 * 2 ^ 32 + a.1, b.2)

end Sys2Proof.Machine
end

