-- ==== Sys2Proof/Machine/PowerCtl.lean ====
section
/-! DEFINITION. The power controller: estimate, calibration, caps, demands, levels and reasons (R290 to R310, R345, R376). -/

namespace Sys2Proof.Machine

/-- Number of a cap or thermal limit in `Power.demand`. -/
def capKey : Cap → Nat
  | .peak => 0
  | .sustained => 1
  | .dieA => 2
  | .dieB => 3
  | .hub => 4
  | .softA => 5
  | .softB => 6
  | .softHub => 7
  | .supply => 8

def Power.dem (p : Power) (k : Nat) : Nat := tabGet 0 p.demand k

/-- Module caps, which reach every actuator (R300). -/
def moduleCap (k : Nat) : Bool := k == 0 || k == 1 || k == 8

/-- Demands that take only the values 0 and 39 to 43 (R300). -/
def hubCap (k : Nat) : Bool := k == 4 || k == 7

/-! ### Levels (R298, R300) -/

/-- Highest demand that reaches a compute die's rungs. -/
def Power.dieLevel (p : Power) (own soft : Nat) : Nat :=
  min 38 ([0, 1, 8, own, soft].foldl (fun a k => max a (p.dem k)) 0)

/-- Highest demand that reaches the hub die's rungs; a module demand below 39 counts as 0. -/
def Power.hubLevel (p : Power) : Nat :=
  max (([0, 1, 8].map (fun k => if 39 ≤ p.dem k then p.dem k else 0)).foldl max 0) (max (p.dem 4) (p.dem 7))

/-- Operating point that a hub level asks for (Table 14-2). -/
def opOfLevel (l : Nat) : Nat := if l < 39 then 0 else if l ≤ 41 then l - 38 else 3

/-- No demand passes a deep-tier rung whose change has not completed on every pair (R300): the highest demand allowed. -/
def State.deepLimit (s : State) : Nat :=
  let cs := (List.range 8).map (fun p => s.ctl (.deep p))
  let done := fun (n : Nat) => cs.all (fun c => !c.changing && decide (n ≤ c.opCur))
  if !done 1 then 39 else if !done 2 then 40 else if !done 3 then 41 else 43

/-- A change of operating point runs or has yet to start at some pair. -/
def State.freqBusy (s : State) : Bool := (List.range 8).any (fun p => (s.ctl (.deep p)).changing || (s.ctl (.deep p)).opCur != (s.ctl (.deep p)).opTarget)

/-- Sets the levels from the demands, and the operating points they ask for; a change that runs ends first (R300). -/
def State.setLevels (s : State) : State :=
  if s.pwr.held then s
  else
    let p := s.pwr
    let h := p.hubLevel
    let s := { s with pwr := { p with levelA := p.dieLevel 2 5, levelB := p.dieLevel 3 6, levelHub := h } }
    if (List.range 8).any (fun k => (s.ctl (.deep k)).opTarget != opOfLevel h) && !s.changeRuns then
      (List.range 8).foldl (fun s k => s.modCtl (.deep k) (fun c => { c with opTarget := opOfLevel h })) s
    else s

/-! ### Estimate and measurement (R291, R292, R295) -/

/-- Events times coefficients of a die. -/
def eventPower (die : Nat) (ev : List Nat) : Nat := (((List.range ev.length).zip ev).map (fun x => Config.energyCoeff die x.1 * x.2)).sum

/-- Hottest reading of some sensors. -/
def hottest (ts : List Int) : Int :=
  match ts with
  | [] => 0
  | t :: r => r.foldl max t

/-- The sensors of a die (Table 14-4). -/
def dieTemps (d : Nat) (ts : List Int) : List Int :=
  if d = 0 then ts.take 40 else if d = 1 then (ts.drop 40).take 40 else (ts.drop 80).take 16

/-- E of a die in mW (R291). -/
def dieEstimate (d : Nat) (t : TickInput) : Nat :=
  Config.energyStatic d (hottest (dieTemps d t.temps)) ((t.rails.drop (8 * d)).take 8) +
    eventPower d (if d = 0 then t.eventsA else if d = 1 then t.eventsB else t.eventsHub)

/-- f × x (R293). -/
def Power.scaled (p : Power) (x : Nat) : Nat := p.factor * x / 16384

/-- CAL_FAULT is raised: by disagreement, or by an implausible measurement (R294). -/
def Power.fault (p : Power) : Bool := p.calFault || p.measBad

/-- The guard band is in force (R293). -/
def Power.guard (p : Power) : Bool := decide (p.agree < 100)

/-- The controlling value for an estimate `e`, given the module's M and E (Table 14-1). -/
def Power.control (p : Power) (m e x : Nat) (whole : Bool) : Nat :=
  if p.measBad then 12 * p.factor * x / 163840
  else if p.calFault then
    (if whole then max m (p.scaled x)
     else if p.scaled e < m ∧ 0 < p.scaled e then p.scaled x * m / p.scaled e else p.scaled x)
  else if p.guard then 12 * p.factor * x / 163840
  else p.scaled x

/-- Takes the plausibility of a tick's measurement (R292). -/
def Power.plausible (p : Power) (t : TickInput) (fe : Nat) (up : Bool) : Power :=
  let run := if t.codeUnchanged then p.codeRun + 1 else 0
  let fe0 := if t.codeUnchanged then p.codeFe else fe
  let stuck := decide (1000 ≤ run) && decide (5 * fe0 < 100 * (if fe0 ≤ fe then fe - fe0 else fe0 - fe))
  let bad := decide (t.minMv < 30000) || decide (60000 < t.maxMv) || decide (6500000 < t.meanMw) || (up && decide (t.meanMw < 20000)) || stuck
  let good := if bad then 0 else p.goodTicks + 1
  { p with codeRun := run, codeFe := fe0, goodTicks := good, measBad := bad || (p.measBad && decide (good < 1000)) }

/-! ### Demands (R297, R299, R305, R307) -/

/-- Mean in mW of the last `n` ticks' P; ticks before the first count 0 (DEDUCED, log 31). -/
def Power.mean (p : Power) (n : Nat) : Nat := (p.hist.drop (p.hist.length - n)).sum / n

/-- C of a cap in mW (R296, R307). -/
def Power.capMw (p : Power) (k : Nat) : Nat :=
  if k = 0 then 1000 * p.peak else if k = 1 then 1000 * p.sustained else if k = 2 then 1000 * p.dieA else if k = 3 then 1000 * p.dieB
  else if k = 4 then 1000 * p.hub else p.volts * 115

/-- The P that a cap limits. -/
def Power.limited (p : Power) (k : Nat) : Nat :=
  if k = 2 then p.lastPd.1 else if k = 3 then p.lastPd.2.1 else if k = 4 then p.lastPd.2.2 else p.lastP

/-- The cap is engaged (R297, R299, R307). -/
def Power.engaged (p : Power) (k : Nat) : Bool := if k = 1 then p.sustEng else if k = 8 then p.supplyLow else true

/-- A demand after a rise by `n` (R299, R300). -/
def riseBy (k limit d n : Nat) : Nat :=
  let v := if hubCap k && d == 0 then 39 else min 43 (d + n)
  if moduleCap k || hubCap k then min v (max d limit) else v

/-- One cap's demand and its count of ticks at or below 0.97 × C (R299). -/
def Power.capTick (p : Power) (limit k : Nat) : Power :=
  let c := p.capMw k
  let v := p.limited k
  let d := p.dem k
  let d' := if !p.engaged k then d else if 105 * c < 100 * v then riseBy k limit d 4 else if c < v then riseBy k limit d 1 else d
  let b := if 100 * v ≤ 97 * c then tabGet 0 p.below k + 1 else 0
  { p with demand := tabSet p.demand k d', below := tabSet p.below k b }

/-- One die's THERMAL_SOFT (R305). -/
def Power.softTick (p : Power) (limit k : Nat) (ts : List Int) : Power :=
  let d := p.dem k
  if ts.any (fun x => decide (1600 ≤ x)) then { p with demand := tabSet p.demand k (riseBy k limit d 1), below := tabSet p.below k 0 }
  else if ts.all (fun x => decide (x < 97 * 16)) then { p with below := tabSet p.below k (tabGet 0 p.below k + 1) }
  else { p with below := tabSet p.below k 0 }

/-! ### Reasons (R303, R308) -/

/-- Demand `k` is above 0 and equals the effective level at some actuator. -/
def Power.binding (p : Power) (k : Nat) : Bool :=
  let d := p.dem k
  d != 0 &&
    (if moduleCap k then min 38 d == p.levelA || min 38 d == p.levelB || d == p.levelHub
     else if k = 2 ∨ k = 5 then min 38 d == p.levelA
     else if k = 3 ∨ k = 6 then min 38 d == p.levelB
     else d == p.levelHub)

/-- A binding cap stands below its prompt-book value (R308). -/
def Power.requested (p : Power) (b : PromptBook) : Bool :=
  (p.binding 0 && decide (p.peak < b.peakW)) || (p.binding 1 && decide (p.sustained < b.sustainedW)) || (p.binding 2 && decide (p.dieA < b.dieAW)) ||
    (p.binding 3 && decide (p.dieB < b.dieBW)) || (p.binding 4 && decide (p.hub < b.hubW))

/-- The reasons active in a tick, in the order of Table 14-7. -/
def Power.active (p : Power) (b : PromptBook) : NSet :=
  (List.range 8).filter (fun r =>
    if r = 0 then p.binding 0 else if r = 1 then p.binding 1 else if r = 2 then p.binding 2 || p.binding 3 || p.binding 4
    else if r = 3 then p.binding 5 || p.binding 6 || p.binding 7 else if r = 4 then p.binding 8 else if r = 5 then p.requested b
    else if r = 6 then p.fault else p.unreachable)

/-- Counts the active reasons, and records and reports those that start or end (R308). -/
def State.reasonTick (s : State) : State :=
  let now := s.pwr.active s.pb
  let old := s.pwr.reasons
  let s := { s with pwr := { s.pwr with reasons := now, reasonUs := now.foldl (fun t r => tabInc t r 10) s.pwr.reasonUs } }
  (List.range 8).foldl (fun s r =>
    let on := setHas now r
    if on = setHas old r then s
    else
      let s := s.pldm (0x0510 + r) (b2n on)
      let quiet := match tabFind s.pwr.reasonSec r with
        | some t => decide (s.clk.mgmt < t + mgmtHz)
        | none => false
      if quiet then s
      else ({ s with pwr := { s.pwr with reasonSec := tabSet s.pwr.reasonSec r s.clk.mgmt } } : State).logEv
        (if on then .reasonStart else .reasonEnd) 0xFF r 0 (tabGet 0 s.pwr.reasonUs r)) s

/-! ### Sensors (R304, R345) -/

/-- Warning, critical and fatal thresholds that a thermal reading has passed. -/
def tempLevel (t : Int) : Nat := b2n (decide (1600 ≤ t)) + b2n (decide (1760 ≤ t)) + b2n (decide (1840 ≤ t))

/-- Nominal voltage of rail k in mV (Table 17-2). -/
def railNominal (k : Nat) : Nat :=
  (if k < 16 then [750, 750, 800, 750, 400, 1800, 750, 1800] else [750, 800, 900, 900, 1100, 1100, 1800, 850])[k % 8]?.getD 0

/-- Thresholds that a rail's voltage has passed: 5 % and 8 % of nominal. -/
def railLevel (k v : Nat) : Nat :=
  let n := railNominal k
  let d := if v ≤ n then n - v else v - n
  b2n (decide (5 * n ≤ 100 * d)) + b2n (decide (8 * n ≤ 100 * d))

/-- Thresholds that the input voltage in mV has passed: warning and critical, upper at 50 V and 55 V, lower at 40 V and 36 V (R384). -/
def inputLevel (v : Nat) : Int :=
  (b2n (decide (50000 ≤ v)) + b2n (decide (55000 ≤ v)) : Nat) - ((b2n (decide (v ≤ 40000)) + b2n (decide (v ≤ 36000)) : Nat) : Int)

/-- The input voltage before the first tick: nominal. -/
def Power.input (p : Power) : Nat := if p.sensorsRead then p.volts else 44000

/-- Takes the sensor readings of a tick; each threshold crossing is reported (R345, R384). -/
def State.senseTick (s : State) (t : TickInput) : State :=
  let temps := t.temps.take 96
  let s := ((List.range temps.length).zip temps).foldl (fun s x =>
    if tempLevel (tabGet 0 s.pwr.sensors x.1) = tempLevel x.2 then s else s.pldm (0x0100 + x.1) (x.2 % 65536).toNat) s
  let rails := t.rails.take 24
  let s := ((List.range rails.length).zip rails).foldl (fun s x =>
    if railLevel x.1 ((s.pwr.rails[x.1]?).getD (railNominal x.1, 0)).1 = railLevel x.1 x.2.1 then s else s.pldm (0x0200 + x.1) x.2.1) s
  let s := if inputLevel s.pwr.input = inputLevel t.meanMv then s else s.pldm 0x0400 t.meanMv
  { s with pwr := { s.pwr with
    sensors := ((List.range temps.length).zip temps).foldl (fun tb x => tabSet tb x.1 x.2) s.pwr.sensors
    sensorsRead := true, rails := rails, maxTemp := hottest temps, volts := t.meanMv } }

/-- MGT_GPIO3 to MGT_GPIO0 (R376). -/
def State.gpioNow (s : State) : Nat :=
  b2n s.pwr.tripped + 2 * b2n (s.mgmt.phase == .safe || s.mgmt.phase == .recovery) + 4 * b2n s.degraded +
    8 * b2n (s.sec.dbgData || s.sec.dbgMgmt || s.sec.dbgUart)

/-! ### The tick (R290) -/

/-- E, M, P and the demands of a tick in which a prompt book's caps are in force. -/
def State.loadTick (s : State) (t : TickInput) : State :=
  let ea := dieEstimate 0 t
  let eb := dieEstimate 1 t
  let eh := dieEstimate 2 t
  let e := ea + eb + eh + Config.energyFixed
  let p := s.pwr.plausible t (s.pwr.scaled e) s.dataUp
  let m := t.meanMw
  let p := { p with
    sumM := p.sumM + m, sumE := p.sumE + e, ticks := p.ticks + 1, lastM := m
    lastP := p.control m e e true
    lastPd := (p.control m e ea false, p.control m e eb false, p.control m e eh false) }
  let p := { p with hist := (p.hist ++ [p.lastP]).drop (p.hist.length + 1 - 100000) }
  let mean := p.mean 100000
  let p := { p with
    sustEng := if p.sustEng then decide (95 * 1000 * p.sustained ≤ 100 * mean) else decide (98 * 1000 * p.sustained ≤ 100 * mean)
    supplyLow := if p.supplyLow then decide (p.volts ≤ 41000) else decide (p.volts < 40000) }
  let above := [0, 1, 2, 3, 4, 8].any (fun k => p.engaged k && decide (p.capMw k < p.limited k))
  let p := { p with unreachable := if p.unreachable then above else above && p.levelHub == 43 }
  let limit := s.deepLimit
  let p := [0, 1, 2, 3, 4, 8].foldl (fun (p : Power) k => p.capTick limit k) p
  let p := ((p.softTick limit 5 (dieTemps 0 t.temps)).softTick limit 6 (dieTemps 1 t.temps)).softTick limit 7 (dieTemps 2 t.temps)
  { s with pwr := p }

/-- The caps of a prompt book are in force. -/
def State.capsOn (s : State) : Bool := s.mgmt.phase == .up || s.mgmt.phase == .reloading

/-- The hottest compute-die sensor, in 1/16 °C (Table 14-4: sensors 0 to 79). -/
def State.hotCompute (s : State) : Int := (List.range 79).foldl (fun m i => max m (tabGet 0 s.pwr.sensors (i + 1))) (tabGet 0 s.pwr.sensors 0)

/-- Raises the alert of each LD whose temperature threshold, in °C, the hottest compute-die sensor reaches (Table 2-7) (DESIGN CHOICE, log 120). -/
def State.tempAlerts (s : State) (old : Int) : State :=
  s.host.lds.foldl (fun s x => match x.2.alertTemp with
    | some c => if old < ((16 * c : Nat) : Int) ∧ ((16 * c : Nat) : Int) ≤ s.hotCompute then s.alert x.1 false s.hotCompute else s
    | none => s) s

/-- POWER_TICK: the controller's tick of 10 µs (R290 to R308). -/
def execPowerTick (t : TickInput) (s : State) : Out :=
  let at_ := nextAt s.pwr.tickFrom 0 5000
  if !s.mgmtUp || s.mgmt.phase == .recovery || decide (s.clk.mgmt < at_) then .next s
  else
    let s := { s with pwr := { s.pwr with tickFrom := at_ + 1 } }
    let old := s.hotCompute
    let s := (s.senseTick t).tempAlerts old
    let s := if s.capsOn then s.loadTick t else s
    -- the first tick after a restart of the processor releases the held levels (R341)
    let s := ({ s with pwr := { s.pwr with held := false } } : State).setLevels
    let s := if s.capsOn then s.reasonTick else s
    .next { s with mgmt := { s.mgmt with gpio := s.gpioNow } }

/-- DEMAND_FALL: a demand whose value has stayed at or below 0.97 × C, or whose die below 97 °C, for 10 ticks falls by 1; a demand on the deep-tier rungs
waits for the change that runs (R299, R300, R305). -/
def execDemandFall (c : Cap) (s : State) : Out :=
  let k := capKey c
  let d := s.pwr.dem k
  if d = 0 || decide (tabGet 0 s.pwr.below k < 10) || (decide (39 ≤ d) && (moduleCap k || hubCap k) && s.freqBusy) then .next s
  else
    let d' := if hubCap k && d == 39 then 0 else d - 1
    .next (({ s with pwr := { s.pwr with demand := tabSet s.pwr.demand k d', below := tabSet s.pwr.below k 0 } } : State).setLevels)

/-! ### Calibration (R293, R294) -/

/-- Distance of two numbers. -/
def absDiff (a b : Nat) : Nat := if a ≤ b then b - a else a - b

/-- An interval's comparison of M and E (R293, R294). Changes of f are held in units of 1/16,384: at most 163 per interval, from 13,108 to 20,480 (DEDUCED, log 80). -/
def Power.calibrate (p : Power) : Power :=
  let fe := p.factor * p.sumE
  let m := 16384 * p.sumM
  let agrees := decide (100 * absDiff fe m ≤ 5 * m)
  let within := decide (100 * absDiff fe m ≤ 15 * m)
  let dis := if within then 0 else p.disagreeRun + 1
  let ok := if within then p.okRun + 1 else 0
  let fault := if p.calFault then decide (ok < 1000) else decide (50 ≤ dis)
  let f := if p.calFault || fault || p.sumE == 0 then p.factor
    else max 13108 (min 20480 (max (p.factor - 163) (min (p.factor + 163) (m / p.sumE))))
  { p with
    factor := f, agreed := agrees, agree := if agrees then satAdd 0xFFFF p.agree 1 else p.agree, disagreeRun := if fault && !p.calFault then 0 else dis,
    okRun := if fault && !p.calFault then 0 else ok, calFault := fault }

/-- CALIBRATION_INTERVAL: 100 ticks have passed (R293, R294). -/
def execCalibrationInterval (s : State) : Out :=
  if s.pwr.ticks < 100 then .next s
  else
    let p := if s.pwr.measBad then s.pwr else s.pwr.calibrate
    .next { s with pwr := { p with sumM := 0, sumE := 0, ticks := 0 } }

/-- CAL_NVM_WRITE: once an hour, while agreement holds and CAL_FAULT is clear, f goes to NVM (R293) (DEDUCED, log 80). -/
def execCalNvmWrite (s : State) : Out :=
  if !s.mgmtUp || s.pwr.fault || !s.pwr.agreed || s.mgmt.phase == .recovery || decide (s.clk.mgmt < s.pwr.nvmAt) then .next s
  else
    let s := [0, 1].foldl (fun s n => s.modNor n (fun x => { x with f := s.pwr.factor })) s
    .next { s with pwr := { s.pwr with nvmAt := s.clk.mgmt + 3600 * mgmtHz } }

/-! ### Admission and caps (R296, R302) -/

/-- CAP_DEFERRED: a descriptor whose start is held since it was checked completes at DEFER_LIMIT, with no effect (R302). -/
def execCapDeferred (op : Nat) (s : State) : Out :=
  match s.op? op with
  | none => .next s
  | some o =>
    if o.started || o.phase != .admitted || !o.checked || !o.waits.isEmpty || decide (s.pwr.levelHub < 42) || decide (s.clk.hmesh < o.checkedAt + s.pwr.deferLimit * 1400000) then .next s
    else .next (({ s with pwr := { s.pwr with deferred := s.pwr.deferred + 1 } } : State).endOp op stCapDeferred dtNone 0)

/-- A write of PWR_CAP_MODULE (R296). -/
def State.writeCapModule (s : State) (v : Nat) : State :=
  let peak := bits v 31 16
  let sus := bits v 15 0
  if peak < 1200 ∨ s.pb.peakW < peak then s.logEv .capRefused 0xFF 0 0 peak
  else if sus < 1000 ∨ s.pb.sustainedW < sus then s.logEv .capRefused 0xFF 1 0 sus
  else if peak < sus then ({ s with pwr := { s.pwr with peak := peak, sustained := peak } } : State).logEv .capRefused 0xFF 1 0 sus
  else { s with pwr := { s.pwr with peak := peak, sustained := sus } }

/-- A write of PWR_CAP_DIE (R296). -/
def State.writeCapDie (s : State) (v : Nat) : State :=
  let a := bits v 15 0
  let b := bits v 31 16
  let h := bits v 47 32
  match [(a, 200, s.pb.dieAW), (b, 200, s.pb.dieBW), (h, 300, s.pb.hubW)].find? (fun x => decide (x.1 < x.2.1) || decide (x.2.2 < x.1)) with
  | some x => s.logEv .capRefused 0xFF 2 0 x.1
  | none => { s with pwr := { s.pwr with dieA := a, dieB := b, hub := h } }

/-- Management-space addresses of the caps (Tables 14-5, 14-6, 21-2). -/
def capModuleAddr : Nat := 0x100500000
def capDieAddr : Nat := 0x100500008

/-- PWR_CAP_MODULE: the management controller writes the module caps (DEDUCED, log 79). -/
def execPwrCapModule (rq : Requester) (value : Nat) (s : State) : Out :=
  if !s.mgmtUp || s.mgmt.phase == .recovery then .next s
  else if !s.mgmtRights rq then .next (s.badAccess (s.rqPart rq) capModuleAddr)
  else .next (s.writeCapModule value)

/-- PWR_CAP_DIE: the management controller writes the die caps, whole or in halves (R12). -/
def execPwrCapDie (rq : Requester) (acc : Access64) (s : State) : Out :=
  if !s.mgmtUp || s.mgmt.phase == .recovery then .next s
  else if !s.mgmtRights rq then .next (s.badAccess (s.rqPart rq) capDieAddr)
  else
    match s.write64 rq capDieAddr (fld s.pwr.hub 16 32 + fld s.pwr.dieB 16 16 + fld s.pwr.dieA 16 0) acc with
    | (some v, s) => .next (s.writeCapDie v)
    | (none, s) => .next s

end Sys2Proof.Machine
end

