-- ==== Sys2Proof/Machine/Wings.lean ====
section
/-! DEFINITION. Closed packets, watermarks and holds of the wings queues, and the TST_ controls (R360 to R367, Tables 18-3 to 18-8). -/

namespace Sys2Proof.Machine

/-! ### Closed packets (R360 to R362) -/

/-- The reader of a queue is stalled on an unfinished packet: one it has begun, or for a store-and-forward reader the one at the head (R360). -/
def State.qStalled (s : State) (q : Nat) : Bool :=
  let w := s.wqueue q
  w.inPkt && !w.closed.contains w.wrPkt &&
    (if (qShape q).2.2.2 = 0 then decide (0 < w.pktWords) && w.level == w.pktWords
     else (w.reading || decide ((qShape q).2.2.2 ≤ w.pktWords)) && w.level == 0)

/-- STALL_LIMIT in read-domain cycles of a queue (R360). -/
def State.stallCycles (s : State) (q : Nat) : Nat := s.pb.stallLimit * (s.qReadClock q).2 / 100

/-- WQ_PACKET_NUMBER_ARRIVAL: the number of the oldest closed packet reaches the write side, which discards what is left of that packet (R361) (DEDUCED, log 113). -/
def execWqPacketNumberArrival (q : Nat) (s : State) : Out :=
  let w := s.wqueue q
  match w.closed with
  | [] => .next s
  | n :: rest =>
    if n = w.wrPkt then .next ((s.modWq q (fun w => { w with closed := rest, orphan := true, discard := some n })).qRetry q)
    else .next (s.modWq q (fun w => { w with closed := rest }))

/-! ### Watermarks (R364, R365, Table 18-7) -/

/-- Management-space address of WQ_STATUS[q]. -/
def wqStatusAddr (q : Nat) : Nat := 0x100F00000 + 8 * q

/-- The value of WQ_STATUS[q]. -/
def State.wqStatus (s : State) (q : Nat) : Nat :=
  let w := s.wqueue q
  fld w.crossCount 16 48 + fld (b2n w.orphan) 1 33 + fld (b2n w.crossed) 1 32 + fld (s.qMark q) 12 16 + fld w.level 12 0

/-- A write of MARK; a value outside 1 to the capacity is ignored. A change of MARK is not a crossing. -/
def State.writeMark (s : State) (q v : Nat) : State :=
  if 1 ≤ v ∧ v ≤ (qShape q).2.2.1 then s.modWq q (fun w => { w with mark := v }) else s

/-- A write of 1 to CROSSED; a crossing in the cycle of the write leaves it set (R365). -/
def State.clearCrossed (s : State) (q : Nat) (crossingNow : Bool) : State :=
  if crossingNow then s.qCrossing q else s.modWq q (fun w => { w with crossed := false })

/-- A requester's access to a register of the management space: only with rights and while the processor answers; without rights it is BAD_ACCESS. -/
def State.mgmtWrite (s : State) (rq : Requester) (addr : Nat) (f : State → State) : State :=
  if !s.mgmtUp || s.mgmt.phase == .recovery then s
  else if !s.mgmtRights rq then s.badAccess (s.rqPart rq) addr
  else f s

/-- CROSSED_CLEAR (R365): the register takes a value, so a lower half held before is used up (R12). -/
def execCrossedClear (rq : Requester) (q : Nat) (crossingNow : Bool) (s : State) : Out :=
  if 120 ≤ q then .next s else .next (s.mgmtWrite rq (wqStatusAddr q) (fun s => (s.dropHeld rq (wqStatusAddr q)).clearCrossed q crossingNow))

/-- MARK_WRITE (R364): the register takes a value, so a lower half held before is used up (R12). -/
def execMarkWrite (rq : Requester) (q value : Nat) (s : State) : Out :=
  if 120 ≤ q then .next s else .next (s.mgmtWrite rq (wqStatusAddr q) (fun s => (s.dropHeld rq (wqStatusAddr q)).writeMark q value))

/-! ### Perturbation controls (R366, R367, Tables 18-3 to 18-6) -/

/-- TST_HOLD_END: HOLD_US has passed in the write domain; what was held is written (Table 18-3). -/
def execTstHoldEnd (q : Nat) (s : State) : Out :=
  let w := s.wqueue q
  let c := s.qWriteClock q
  if !w.holding || decide (c.1 < w.holdSince + bits (tabGet 0 s.wq.tstQ q) 47 32 * c.2 / 100) then .next s
  else .next ((s.modWq q (fun w => { w with holding := false })).qRetry q)

def tstBase : Nat := 0x101000000

/-- A write of a TST_ register takes effect only while JTAG_DATA is open (R366). -/
def State.tstWrite (s : State) (addr : Nat) (f : State → State) : State := if s.sec.dbgData then f s else s.badAccess 0xFF addr

def State.writeTstQ (s : State) (q v : Nat) : State :=
  { s with wq := { s.wq with tstQ := tabSet s.wq.tstQ q (fld (bits v 60 32) 29 32 + fld (bits v 19 16) 4 16 + bits v 11 0) } }

def State.writeTstSync (s : State) (v : Nat) : State := { s with wq := { s.wq with tstSync := v % 64 } }
def State.writeTstRef (s : State) (v : Nat) : State := { s with wq := { s.wq with tstRef := v % 2 ^ 24 } }
def State.writeTstReplay (s : State) (v : Nat) : State :=
  { s with wq := { s.wq with tstReplay := fld (bits v 15 8) 8 8 + v % 16 } }

end Sys2Proof.Machine
end

