-- ==== Sys2Proof/Machine/RegMap.lean ====
section
/-! DEFINITION. The register map: which registers the two spaces hold, and the value that each reads (R10 to R12, R66, R389 to R393, and the register tables of every chapter). -/

namespace Sys2Proof.Machine

/-- A register at its offset: its width in bytes, its value, the mask of its RC bits, and whether a read in halves latches (R12: RO and RC). -/
structure Reg where
  width : Nat
  value : Nat
  rc : Nat := 0
  latch : Bool := true
deriving DecidableEq, Repr

def r32 (v : Nat) : Option Reg := some { width := 4, value := v % 2 ^ 32 }
def r64 (v : Nat) : Option Reg := some { width := 8, value := v % 2 ^ 64 }
def rw64 (v : Nat) : Option Reg := some { width := 8, value := v % 2 ^ 64, latch := false }

/-- A reader's view of what depends on the reader: an LD, or the management space (R390). -/
inductive View where
  | host (port ld : Nat)
  | mgmt
deriving DecidableEq, Repr

/-- A register block (Tables 21-1, 21-2). -/
inductive Blk where
  | cxl
  | caps
  | part (p : Nat)
  | ring (r : Nat)
  | cue (p : Nat)
  | tier (p : Nat)
  | bud (p : Nat)
  | pwr
  | thm
  | gol
  | ras
  | nctl (n : Nat)
  | dctl (p : Nat)
  | cvn
  | cld
  | sec
  | log
  | wq
  | tst
deriving DecidableEq, Repr

/-! ### CAPS_ (R392, Tables 21-3 to 21-7) -/

/-- Sectors of a pseudo-channel's sets (R82, R84, R260). -/
def pcSectors : Nat := setsPerRegion / 64 * 256

/-- In-service derated capacity of a class as a view sees it (Table 21-3). -/
def State.capView (s : State) (v : View) (cls : Nat) : Nat :=
  if cls = 4 then
    match v with
    | .host p _ => s.capNow 4 p
    | .mgmt => ((List.range 8).map (s.capNow 4)).sum
  else s.dNow cls 0

def State.capsReg (s : State) (v : View) (off : Nat) : Option Reg :=
  let live := fun (n : Nat) => if s.mgmt.phase = .safe then 0 else n
  if off = 0x00 then r32 (fld 0x0D01 16 16 + fld 1 4 8 + s.variant)
  else if off = 0x04 then r32 (fld (b2n s.degraded) 1 2 + fld (b2n (s.mgmt.phase == .safe)) 1 1 + b2n s.dataUp)
  else if off = 0x08 then r64 s.deepRaw
  else if off = 0x10 then r64 s.deepUser
  else if off = 0x18 then r64 s.deepSpare
  else if off = 0x20 then r64 s.deepMeta
  else if off = 0x28 then r64 s.share
  else if off = 0x30 then r64 (live (s.pcs * pcSectors))
  else if off = 0x38 then r32 (fld (live s.ranksIn) 8 16 + fld 64 8 8 + (if s.variant = 2 then 4 else 8))
  else if off = 0x3C then r32 (fld (live s.pcs) 10 16 + fld (live s.stacks) 8 8 + 16)
  else if off = 0x40 then r64 (fld 1750 12 52 + fld (live s.matrixUnits) 9 32 + fld (live s.clusters) 7 16 + fld (live s.vectorUnits) 7 8 + live s.clusters)
  else if off = 0x48 then r64 (fld 256 9 48 + fld 768 10 32 + fld 4096 13 16 + 64)
  else if off = 0x50 then r32 (fld 4 4 16 + fld 128 8 8 + 8)
  else if off % 8 = 0 ∧ 0x80 ≤ off ∧ off < 0xB0 then r64 (live (s.capView v ((off - 0x80) / 8)))
  else none

/-! ### PART_ and the doorbell slots (Tables 3-1 to 3-15) -/

def State.partReg (s : State) (p off : Nat) : Option Reg :=
  let b := s.pb.part? p
  let x := s.part p
  let get := fun (f : PbPart → Nat) => (b.map f).getD 0
  if off = 0x00 then r32 (get (fun b => fld (b2n b.keyOnReset) 1 10 + fld (b2n b.orphanStale) 1 9 + fld (b2n b.rt) 1 8 + b.num % 64))
  else if off = 0x04 then r32 (get (fun b => fld b.ringCount 13 16 + b.ringFirst % 4096))
  else if off = 0x08 then r32 (fld (s.pb.rangesOf p).length 9 16 + fld (s.pb.ldsOf p).length 8 0)
  else if off = 0x0C then r32 (fld x.resetCount 16 16 + x.st % 8)
  else if off = 0x10 then r32 0
  else if off = 0x14 then r32 (fld (get (·.slotsMin)) 10 16 + (s.opsOf p).length % 1024)
  else if off = 0x18 then r64 x.aborts
  else if off = 0x20 then r64 (fld x.orphanPois 32 32 + x.orphanStale % 2 ^ 32)
  else if off = 0x28 then some { width := 4, value := x.noPerm % 2 ^ 32, rc := 0xFFFFFFFF }
  else none

/-- STATE of a ring: ACTIVE while it has work posted or admitted (Table 3-12; DEDUCED, log 37). -/
def State.ringState (s : State) (r : Nat) : Nat :=
  let x := s.ring r
  if x.st ≠ 0 then x.st else b2n (x.sqHead != x.sqTail || s.ringOps r != 0)

def State.ringReg (s : State) (r off : Nat) : Option Reg :=
  let x := s.ring r
  match s.pb.ring? r with
  | none => if off = 0x0C then r32 (2 ^ 16) else if off < 0x20 ∧ off % 4 = 0 then r32 0 else none
  | some b =>
    if off = 0x00 then r32 x.sqTail
    else if off = 0x04 then r32 x.cqHead
    else if off = 0x08 then r32 x.sqHead
    else if off = 0x0C then r32 (fld (b2n (phaseBit b.cqLog2 x.cqTail)) 1 16 + x.cqTail % 65536)
    else if off = 0x10 then r32 (fld x.error 8 24 + fld (s.ringOps r) 9 4 + s.ringState r % 8)
    else if off = 0x14 then r32 0
    else if off = 0x18 then r32 (b2n x.mask)
    else if off = 0x1C then r32 (fld b.sqLog2 4 28 + fld b.cqLog2 4 24 + fld b.maxInflight 9 15 + fld b.vector 6 7 + b.intLd % 128)
    else none

/-! ### CUE_ and TIER_ (Tables 4-2, 4-3, 4-6 to 4-10) -/

def State.cueReg (s : State) (p off : Nat) : Option Reg :=
  let h := (s.part p).cue
  if off = 0x00 then r32 h.curtain
  else if off = 0x04 then r32 (fld (b2n h.loaded) 1 31 + fld (h.cues.filter Cue.inPlace).length 6 16 + h.layerCount % 65536)
  else if off = 0x08 ∨ off = 0x10 then rw64 0
  else if off = 0x20 then r64 h.late
  else if off = 0x28 then r64 (h.lateCycles / 1400)
  else if off = 0x30 then r64 h.waste
  else if off = 0x38 then r64 h.abandoned
  else if off = 0x40 then r64 h.skipped
  else none

def State.tierReg (s : State) (p off : Nat) : Option Reg :=
  let x := s.part p
  if off < 0x400 ∧ off % 4 = 0 then
    let n := off / 4
    match s.pb.range? p n with
    | none => r32 0
    | some r => r32 (fld (b2n (tabFind x.evicting n).isSome) 1 31 + ((tabFind x.hintReg n).getD r.hint) % 8)
  else if off = 0x400 then r32 (s.pinnedOf p)
  else if off = 0x404 then r32 (((s.pb.tier? p).map (·.pinLimit)).getD 0)
  else if off = 0x408 then r32 (s.resident p)
  else if off = 0x40C then some { width := 4, value := x.pinRefused % 2 ^ 32, rc := 0xFFFFFFFF }
  else if off = 0x410 then r32 x.epochs
  else if off = 0x414 then some { width := 4, value := x.badWrites % 2 ^ 32, rc := 0xFFFFFFFF }
  else none

/-! ### BUD_ (Tables 11-5 to 11-7) -/

/-- The activities and points a view of class `cls` of a partition sums over: its LDs with their ports, for HOST_EGRESS. -/
def State.budLds (s : State) (v : View) (p : Nat) : List Nat :=
  match v with
  | .host q l => [ldIdx q l]
  | .mgmt => s.pb.ldsOf p

/-- Register `off` of class `cls` (Table 11-5). -/
def State.budClassReg (s : State) (v : View) (p cls off : Nat) : Option Reg :=
  let rt := s.pb.isRt p
  let ids := s.budLds v p
  let sum := fun (f : Nat → Nat) => (ids.map f).sum
  let cnt := fun (t : Tab Nat) => if cls = 4 then min 0xFFFFFFFF (sum (fun i => tabGet 0 t (actKey 4 (actLd i)))) else tabGet 0 t (actKey cls p)
  if off = 0x00 then
    r64 (if rt then 0 else if cls = 4 then sum (fun i => s.pb.budget (actLd i) 4 * s.scale 4 (i / 16) / 65536) else s.guar p cls 0)
  else if off = 0x08 then r64 (if !rt then 0 else if cls = 4 then sum (fun i => s.pb.budget (actLd i) 4) else s.pb.partValue p cls none)
  else if off = 0x10 then r64 (if 2 ≤ cls ∧ cls ≤ 4 then 0 else s.pb.budget (actCue p) cls)
  else if off = 0x18 then r64 (if cls = 4 then sum (fun i => tabGet 0 s.bud.last (budKey 4 (i / 16) (actLd i))) else s.useLast cls p)
  else if off = 0x20 then r64 (if cls = 4 then sum (fun i => tabGet 0 s.bud.total (actKey 4 (actLd i))) else tabGet 0 s.bud.total (actKey cls p))
  else if off = 0x28 then r32 (cnt s.bud.overWin)
  else if off = 0x2C then r32 (cnt s.bud.unmet)
  else if off = 0x30 then r32 (if cls = 1 then cnt s.bud.throttledWin else 0)
  else if off = 0x38 then r64 (if cls = 4 then 0 else s.useLast cls (actCue p))
  else none

/-- BUD_SCALE of a class at a port (Table 11-7). -/
def State.scaleReg (s : State) (cls port : Nat) : Nat :=
  let k := scaleKey cls port
  fld (tabGet 0 s.bud.derates k) 8 24 + fld (b2n (setHas s.bud.rtShort k)) 1 17 + s.scale cls port % 2 ^ 17

/-- BUD_SCALE of HOST_EGRESS in the management copy: the lowest SCALE, RT_SHORT of any port, the sum of the counts. -/
def State.scaleSum (s : State) : Nat :=
  let ps := List.range 8
  fld (min 0xFF (ps.map (fun q => tabGet 0 s.bud.derates (scaleKey 4 q))).sum) 8 24 + fld (b2n (ps.any (fun q => setHas s.bud.rtShort (scaleKey 4 q)))) 1 17 +
    ps.foldl (fun m q => min m (s.scale 4 q)) 65536

/-- Register `off` of a class's state (Table 11-6). -/
def State.budStateReg (s : State) (v : View) (cls off : Nat) : Option Reg :=
  let port := match v with | .host q _ => q | .mgmt => 0
  let whole := decide (cls = 4) && v == .mgmt
  if off = 0x00 then r64 (if whole then 8 * dValid 4 else dValid cls)
  else if off = 0x08 then r64 (s.capView v cls)
  else if off = 0x10 then r32 (if whole then s.scaleSum else s.scaleReg cls port)
  else if off = 0x14 then r32 (if whole then ((List.range 8).map (s.pb.rtTotal 4)).sum else s.pb.rtTotal cls port)
  else if off = 0x18 then r64 0
  else none

def State.budReg (s : State) (v : View) (p off : Nat) : Option Reg :=
  if off < 0x180 then s.budClassReg v p (off / 0x40) (off % 0x40)
  else if 0x200 ≤ off ∧ off < 0x2C0 then s.budStateReg v ((off - 0x200) / 0x20) (off % 0x20)
  else none

/-! ### PWR_ and THM_ (Tables 14-5 to 14-12) -/

def State.pwrReg (s : State) (v : View) (off : Nat) : Option Reg :=
  let p := s.pwr
  if off = 0x00 then r32 (fld p.peak 16 16 + p.sustained % 65536)
  else if off = 0x08 then
    let x := fld p.hub 16 32 + fld p.dieB 16 16 + p.dieA % 65536
    if v = .mgmt then rw64 x else r64 x
  else if off = 0x10 then
    r32 (fld (b2n p.guard) 1 31 + fld (b2n p.fault) 1 30 + fld p.levelHub 6 24 + fld (b2n p.measBad) 1 23 + fld (b2n p.sustEng) 1 22 +
      fld p.levelB 6 16 + fld p.levelA 6 8 + ((p.reasons.map (2 ^ ·)).sum) % 256)
  else if off = 0x14 then r32 (fld (min 0xFFFF p.agree) 16 16 + p.factor % 65536)
  else if off = 0x18 then r64 (fld (p.lastM / 1000) 16 48 + fld (p.lastP / 1000) 16 32 + fld (p.mean 100000 / 1000) 16 16 + (p.mean 200 / 1000) % 65536)
  else if 0x100 ≤ off ∧ off < 0x140 ∧ off % 8 = 0 then r64 (tabGet 0 p.reasonUs ((off - 0x100) / 8))
  else if off = 0x140 then r64 p.deferred
  else if off = 0x148 then r32 p.deferLimit
  else none

def State.thmReg (s : State) (off : Nat) : Option Reg :=
  let temp := fun (t : Int) => (t % 65536).toNat
  if off < 4 * 96 ∧ off % 4 = 0 then r32 (fld (b2n s.pwr.sensorsRead) 1 31 + temp (tabGet 0 s.pwr.sensors (off / 4)))
  else if off = 0x200 then r32 (fld (b2n s.pwr.tripped) 1 31 + fld s.pwr.tripSensor 7 24 + temp s.pwr.maxTemp)
  else none

/-! ### GOL_ (Tables 5-4 to 5-6) -/

def State.golReg (s : State) (off : Nat) : Option Reg :=
  if off < 0x800 ∧ off % 8 = 0 then
    let n := off / 8
    let g := s.slot n
    r64 (fld (s.inflight n + g.importers.length) 32 32 + fld g.st 2 30 + fld g.owner 6 24 + fld (b2n g.imp) 1 23 + fld g.fmt 1 16 + fld g.gen 8 8 + b2n (s.named n))
  else if 0x1000 ≤ off ∧ off < 0x9000 ∧ off % 4 = 0 then
    let n := (off - 0x1000) / 128
    let k := (off - 0x1000) % 128 / 4
    r32 (((List.range 8).map (fun j => fld ((s.slot n).lens[8 * k + j]?.getD 0) 4 (4 * j))).sum)
  else if off = 0x9000 then r64 s.gol.stale
  else if off = 0x9008 then r64 s.gol.damaged
  else if off = 0x9010 then r64 s.gol.resealRaw
  else if off = 0x9018 then r64 s.gol.legacy
  else none

/-! ### RAS_ (Tables 13-6 to 13-9) -/

def State.rasCfg (s : State) : Nat :=
  fld (b2n s.ras.poisonOnly) 1 40 + fld s.ras.markThresh 8 32 + fld s.ras.holdLimit 10 16 + fld s.ras.scrubNearH 8 8 + s.ras.scrubDeepH % 256

/-- SPARE_LEFT: spare of the ranks in service less what retired ranks have moved into it, in units of 4 GiB (R284, R393). -/
def State.spareLeft (s : State) : Nat := if s.variant = 2 then 96 - 32 * s.ras.spareUsed else 192 - 64 * s.ras.spareUsed

def State.rasReg (s : State) (off : Nat) : Option Reg :=
  let r := s.ras
  if off = 0x00 then rw64 s.rasCfg
  else if off = 0x08 then
    r32 (fld (b2n r.migrating.isSome) 1 31 + fld (b2n r.spareExh) 1 30 + fld (min 63 r.recov.length) 6 24 +
      fld (min 255 (((s.dram.near).map (fun x => x.2.out.length)).sum)) 8 16 + fld s.spareLeft 8 8 + (64 - s.ranksIn) % 128)
  else if 0x100 ≤ off ∧ off < 0x300 ∧ off % 8 = 0 then
    let k := s.rank ((off - 0x100) / 8)
    r64 (fld k.ce 32 32 + fld k.mark2 4 12 + fld k.mark1 4 8 + k.st % 8)
  else if off = 0x400 then r64 r.ceDeep
  else if off = 0x408 then r64 r.ueDeep
  else if off = 0x410 then r64 r.ceNear
  else if off = 0x418 then r64 r.ueNear
  else if off = 0x420 then r64 r.poisoned
  else if off = 0x428 then r64 r.recovered
  else if off = 0x430 then r64 r.unrecovered
  else if off = 0x438 then r64 r.holdExpired
  else if off = 0x440 then r64 r.migrated
  else if off = 0x448 then r64 r.hopReplays
  else if off = 0x450 then r64 (fld r.scrubPassesNear 32 32 + r.scrubPassesDeep % 2 ^ 32)
  else none

/-! ### NCTL_ and DCTL_ (Tables 12-5 to 12-15) -/

def State.ctlCfg (s : State) (c : Ctl) : Nat :=
  let d := s.ctl c
  fld d.panicCap 8 32 + (match c with | .deep _ => fld d.rdOffender 8 24 | .near _ => 0) + fld d.rdMit 12 12 + fld d.panicLow 4 4 + d.retrainLog2 % 16

def State.nctlReg (s : State) (n off : Nat) : Option Reg :=
  let d := s.ctl (.near n)
  if off = 0x00 then rw64 (s.ctlCfg (.near n))
  else if 0x100 ≤ off ∧ off < 0x180 ∧ off % 4 = 0 then
    let k := (off - 0x100) / 4
    r32 (fld (b2n (setHas d.out k)) 1 7 + fld (b2n (setHas d.doubled k)) 1 6 + tabGet 0 d.owed k % 8)
  else if off = 0x200 then r64 d.cntPostponed
  else if off = 0x208 then r64 d.cntForced
  else if off = 0x210 then r64 d.cntBatch
  else if off = 0x218 then r64 d.cntTargeted
  else if off = 0x220 then r64 d.cntPanicBytes
  else if off = 0x228 then r64 d.cntSteps
  else if off = 0x230 then r64 d.cntDefer
  else none

def State.dctlReg (s : State) (p off : Nat) : Option Reg :=
  let d := s.ctl (.deep p)
  if off = 0x00 then rw64 (s.ctlCfg (.deep p))
  else if off = 0x08 then
    r32 (fld d.opCur 2 30 + fld d.opTarget 2 28 + fld (b2n d.changing) 1 27 +
      fld ((List.range 8).map (fun k => fld (b2n (s.rankOk (srOfPair p k))) 1 k)).sum 8 8)
  else if off = 0x0C then
    r32 (fld ((d.doubled.map (2 ^ ·)).sum) 8 24 + ((List.range 8).map (fun k => fld (tabGet 0 d.owed k) 3 (3 * k))).sum)
  else if off = 0x10 then rw64 d.xlateMa
  else if off = 0x18 then r64 (s.xlateOut p)
  else if 0x20 ≤ off ∧ off < 0x40 ∧ off % 8 = 0 then r64 (tset ((off - 0x20) / 8))
  else if off = 0x100 then r64 d.cntPostponed
  else if off = 0x108 then r64 d.cntForced
  else if off = 0x110 then r64 d.cntBatch
  else if off = 0x118 then r64 d.cntTargeted
  else if off = 0x120 then r64 d.cntOffenders
  else if off = 0x128 then r64 d.cntPanicBytes
  else if off = 0x130 then r64 d.cntSteps
  else if off = 0x138 then r64 d.cntDefer
  else if off = 0x140 then r64 d.cntFreq
  else if off = 0x148 then r64 d.cntPauseNs
  else none

/-! ### CVN_ and CLD_ (Tables 9-6 to 9-10, 10-8, 10-9) -/

def State.rgnVersion (s : State) (n : Nat) : Nat :=
  match s.pb.regions[n]? with
  | some g => if g.kind = 1 && s.isHome g then ((s.region g.rid).current g.nslots).2 else 0
  | none => 0

def State.rgnState (s : State) (n : Nat) : Nat :=
  match s.pb.regions[n]? with
  | none => 0
  | some g =>
    let r := s.region g.rid
    let home := s.isHome g
    let pins := ((List.range g.nslots).map (fun k => (r.vs k).pins.length + (r.vs k).basePins)).sum
    let free := countUp g.nslots (fun k => (r.vs k).st == .free)
    let there := home && decide (g.kind = 1)
    fld r.epoch 16 48 + fld (if there then min 0xFFFF pins else 0) 16 32 + fld (if there then free else 0) 4 24 + fld g.mode 2 16 +
      fld (b2n home) 1 15 + fld (b2n (g.altHome == s.pb.moduleId)) 1 14 + fld (b2n (!r.lostMembers.isEmpty || r.mirrorLost)) 1 13 +
      fld (b2n r.rebuilding) 1 12 + fld (b2n r.sealedCur) 1 11

def State.cvnReg (s : State) (off : Nat) : Option Reg :=
  let c := s.cav
  if off = 0x00 then r32 (fld s.pb.sharePct 7 16 + s.pb.moduleId % 2 ^ 14)
  else if off = 0x08 then r64 (s.share % 2 ^ 44)
  else if off = 0x100 then r64 c.remoteReads
  else if off = 0x108 then r64 c.remoteWrites
  else if off = 0x110 then r64 c.served
  else if off = 0x118 then r64 c.degradedReads
  else if off = 0x120 then r64 c.conflicts
  else if off = 0x128 then r64 c.rebuildUnits
  else if off = 0x130 then r64 c.lostUnits
  else if off = 0x138 then r64 c.tableImports
  else if 0x10000 ≤ off ∧ off < 0x20000 ∧ off % 8 = 0 then
    (if off % 16 = 0 then r64 (s.rgnVersion ((off - 0x10000) / 16)) else r64 (s.rgnState ((off - 0x10000) / 16)))
  else none

def State.cldReg (s : State) (off : Nat) : Option Reg :=
  if off < 0x10 ∧ off % 4 = 0 then
    let p := off / 4
    let c := s.cport p
    let en := ((s.pb.cldPorts.find? (fun x => x.port == p)).map (·.pfcEn)).getD false
    r32 (fld (s.cld.sessions.filter (fun x => x.port == p)).length 16 16 + fld (b2n en) 1 2 + fld (b2n c.lock) 1 1 + b2n c.up)
  else if 0x100 ≤ off ∧ off < 0x300 ∧ off % 8 = 0 then
    let c := s.cport ((off - 0x100) / 0x80)
    ([c.tx, c.rx, c.retx, c.rxOther, c.hchkFail, c.unknown, c.gcmFail, c.replay, c.dup, c.noBuffer, c.ece, c.peerLost][(off - 0x100) % 0x80 / 8]?).bind r64
  else none

/-! ### SEC_, LOG_, WQ_ and TST_ (Tables 15-5 to 15-8, 17-6, 17-7, 18-3 to 18-8) -/

/-- SEC_STATUS, also measurement 5 (Table 15-5). -/
def State.secStatus (s : State) : Nat :=
  let c := s.sec
  fld (b2n c.claimed) 1 31 + fld c.bank 2 29 + fld (b2n c.cosign) 1 28 + fld (b2n c.dbgData) 1 27 + fld (b2n c.dbgMgmt) 1 26 +
    fld (b2n c.dbgUart) 1 25 + fld c.pbSvn 7 8 + fld c.fwSvn 8 0

/-- LISTED of the erase sweep: the most lines on any pair's list (Table 15-7). -/
def State.eraseListed (s : State) : Nat :=
  (List.range 8).foldl (fun m q => max m (((s.mem.erased.filter (fun e => e.pair == q)).map (fun e => e.cleared.length)).sum)) 0

def State.secReg (s : State) (off : Nat) : Option Reg :=
  if off = 0x00 then r32 s.secStatus
  else if off = 0x04 then r32 (fld (b2n s.pb.injectOk) 1 8 + s.pb.ideRequired % 256)
  else if off = 0x08 then r32 (fld (b2n (!s.mem.erased.isEmpty)) 1 31 + min 4096 s.eraseListed)
  else if 0x100 ≤ off ∧ off < 0x200 ∧ off % 4 = 0 then r32 (min 0xFFFF (tabGet 0 s.sec.keyGen ((off - 0x100) / 4)))
  else none

/-- LOG_MIRROR (Table 17-7). -/
def State.logMirror (s : State) : Nat :=
  let behind := fun (n : Nat) => (s.mgmt.logNext + 2 ^ 32 - n) % 2 ^ 32
  let waits := fun (d : Nat) => match s.mgmt.xfer with
    | some x => x.2 == d
    | none => false
  fld (b2n (waits 1)) 1 31 + fld (b2n (waits 0)) 1 30 + min 2048 (max (behind s.mgmt.mirrorNext.1) (behind s.mgmt.mirrorNext.2))

def State.logReg (s : State) (off : Nat) : Option Reg :=
  if off = 0x00 then r32 s.mgmt.logNext
  else if off = 0x04 then r32 s.mgmt.logOldest
  else if off = 0x08 then r32 s.logMirror
  else if off = 0x10 then r64 (s.mgmt.timeOffset % (2 ^ 64 : Int)).toNat
  else if 0x100 ≤ off ∧ off < 0x120 ∧ off % 4 = 0 then r32 (s.bookmark ((off - 0x100) / 4))
  else if 0x10000 ≤ off ∧ off < 0x20000 ∧ off % 8 = 0 then
    match s.mgmt.log.find? (fun e => e.seq % 2048 == (off - 0x10000) / 32) with
    | some e => r64 (leAt e.bytes (off % 32) 8)
    | none => r64 0
  else none

def State.wqReg (s : State) (off : Nat) : Option Reg :=
  if off < 8 * 120 ∧ off % 8 = 0 then some { width := 8, value := s.wqStatus (off / 8), rc := 0xFFFF * 2 ^ 48 }
  else if 0x1000 ≤ off ∧ off < 0x1000 + 16 * 120 ∧ off % 8 = 0 then
    let w := s.wqueue ((off - 0x1000) / 16)
    r64 (if off % 16 = 0 then w.trunc else w.orphanBytes)
  else if off = 0x2000 then r32 s.pb.stallLimit
  else none

def State.tstReg (s : State) (off : Nat) : Option Reg :=
  if off < 8 * 120 ∧ off % 8 = 0 then rw64 (tabGet 0 s.wq.tstQ (off / 8))
  else if off = 0x400 then r32 s.wq.tstSync
  else if off = 0x404 then r32 s.wq.tstRef
  else if off = 0x408 then r32 s.wq.tstReplay
  else none

/-! ### The two spaces (R389, R390) -/

/-- The register of a block at an offset, as a view sees it. -/
def State.regAt (s : State) (v : View) (b : Blk) (off : Nat) : Option Reg :=
  match b with
  | .cxl => none
  | .caps => s.capsReg v off
  | .part p => s.partReg p off
  | .ring r => s.ringReg r off
  | .cue p => s.cueReg p off
  | .tier p => s.tierReg p off
  | .bud p => s.budReg v p off
  | .pwr => s.pwrReg v off
  | .thm => s.thmReg off
  | .gol => s.golReg off
  | .ras => s.rasReg off
  | .nctl n => s.nctlReg n off
  | .dctl p => s.dctlReg p off
  | .cvn => s.cvnReg off
  | .cld => s.cldReg off
  | .sec => s.secReg off
  | .log => s.logReg off
  | .wq => s.wqReg off
  | .tst => s.tstReg off

/-- The block at a BAR0 offset and the offset in it (Table 21-1), for the partition `p` that owns the LD. -/
def barBlock (p a : Nat) : Option (Blk × Nat) :=
  if a < 0x01000000 then some (.cxl, a)
  else if 0x01000000 ≤ a ∧ a < 0x01001000 then some (.part p, a - 0x01000000)
  else if 0x02000000 ≤ a ∧ a < 0x02040000 then some (.ring ((a - 0x02000000) / 64), a % 64)
  else if 0x03000000 ≤ a ∧ a < 0x03001000 then some (.cue p, a - 0x03000000)
  else if 0x03001000 ≤ a ∧ a < 0x03002000 then some (.tier p, a - 0x03001000)
  else if 0x04000000 ≤ a ∧ a < 0x04001000 then some (.bud p, a - 0x04000000)
  else if 0x04001000 ≤ a ∧ a < 0x04002000 then some (.pwr, a - 0x04001000)
  else if 0x04002000 ≤ a ∧ a < 0x04003000 then some (.caps, a - 0x04002000)
  else none

/-- The block at an address of the management space and the offset in it (Table 21-2). -/
def mgmtBlock (a : Nat) : Option (Blk × Nat) :=
  let at_ := fun (base size : Nat) => decide (base ≤ a) && decide (a < base + size)
  if at_ 0x100000000 0x1000 then some (.caps, a % 0x1000)
  else if at_ 0x100100000 0x40000 then some (.part ((a - 0x100100000) / 0x1000), a % 0x1000)
  else if at_ 0x100200000 0x40000 then some (.ring ((a - 0x100200000) / 64), a % 64)
  else if at_ 0x100300000 0x80000 then
    (let p := (a - 0x100300000) / 0x2000
     if a % 0x2000 < 0x1000 then some (.cue p, a % 0x1000) else some (.tier p, a % 0x1000))
  else if at_ 0x100400000 0x40000 then some (.bud ((a - 0x100400000) / 0x1000), a % 0x1000)
  else if at_ 0x100500000 0x1000 then some (.pwr, a % 0x1000)
  else if at_ 0x100501000 0x1000 then some (.thm, a % 0x1000)
  else if at_ 0x100600000 0x10000 then some (.gol, a % 0x10000)
  else if at_ 0x100700000 0x1000 then some (.ras, a % 0x1000)
  else if at_ 0x100800000 0x10000 then some (.nctl ((a - 0x100800000) / 0x1000), a % 0x1000)
  else if at_ 0x100900000 0x8000 then some (.dctl ((a - 0x100900000) / 0x1000), a % 0x1000)
  else if at_ 0x100A00000 0x20000 then some (.cvn, a - 0x100A00000)
  else if at_ 0x100C00000 0x1000 then some (.cld, a % 0x1000)
  else if at_ 0x100D00000 0x1000 then some (.sec, a % 0x1000)
  else if at_ 0x100E00000 0x20000 then some (.log, a - 0x100E00000)
  else if at_ 0x100F00000 0x4000 then some (.wq, a - 0x100F00000)
  else if at_ 0x101000000 0x1000 then some (.tst, a % 0x1000)
  else none

end Sys2Proof.Machine
end

