-- ==== Sys2Proof/Machine/Regs.lean ====
section
/-! DEFINITION. Register accesses: reads, writes, halves and access codes (R10 to R13, R389 to R391), and REG_READ and REG_WRITE (Table 17-1). -/

namespace Sys2Proof.Machine

/-! ### How an access meets a register (R12) -/

/-- What an access of `size` bytes at an offset meets; `off` is the register's own offset. -/
inductive Hit where
  /-- A size or an alignment that R12 does not allow. -/
  | bad
  /-- A reserved offset (R11). -/
  | reserved
  | whole (r : Reg) (off : Nat)
  | lower (r : Reg) (off : Nat)
  | upper (r : Reg) (off : Nat)
deriving DecidableEq, Repr

def hit (look : Nat → Option Reg) (off size : Nat) : Hit :=
  if (size ≠ 4 ∧ size ≠ 8) ∨ off % size ≠ 0 then .bad
  else
    match look off with
    | some r => if r.width = size then .whole r off else if size = 4 then .lower r off else .bad
    | none =>
      if size = 8 then (if (look (off + 4)).isSome then .bad else .reserved)
      else if off % 8 = 4 then
        match look (off - 4) with
        | some r => if r.width = 8 then .upper r (off - 4) else .reserved
        | none => .reserved
      else .reserved

/-! ### Reads (Table 0-3, R12, R390) -/

/-- A read clears the RC field at an offset, keeping the events counted in its cycle (Table 0-3). A management read clears no RC field of a partition's
copy (R390). -/
def State.clearRc (s : State) (v : View) (b : Blk) (off counted : Nat) : State :=
  match v, b with
  | .host _ _, .part p => if off = 0x28 then s.modPart p (fun x => { x with noPerm := counted }) else s
  | .host _ _, .tier p =>
    if off = 0x40C then s.modPart p (fun x => { x with pinRefused := counted })
    else if off = 0x414 then s.modPart p (fun x => { x with badWrites := counted })
    else s
  | .mgmt, .wq => if off < 8 * 120 then s.modWq (off / 8) (fun w => { w with crossCount := counted }) else s
  | _, _ => s

/-- The upper half that a requester's last lower-half read of a register latched (DEDUCED, log 116). -/
def State.latchOf (s : State) (rq : Requester) (addr : Nat) : Option Nat :=
  (s.host.latched.find? (fun h => h.rq == rq && h.addr == addr)).map (·.value)

def State.dropLatch (s : State) (rq : Requester) (addr : Nat) : State :=
  { s with host := { s.host with latched := s.host.latched.filter (fun h => !(h.rq == rq && h.addr == addr)) } }

def State.setLatch (s : State) (rq : Requester) (addr v : Nat) : State :=
  let s := s.dropLatch rq addr
  { s with host := { s.host with latched := s.host.latched ++ [{ rq := rq, addr := addr, value := v }] } }

/-- All ones in every byte. -/
def allOnes (size : Nat) : Nat := 2 ^ (8 * size) - 1

/-- A read of a block's register: its value and what the read changes. `base` is the address of the block. -/
def State.readBlk (s : State) (rq : Requester) (v : View) (b : Blk) (base off size counted : Nat) : Nat × State :=
  match hit (s.regAt v b) off size with
  | .bad => (allOnes size, s.badAccess (s.rqPart rq) (base + off))
  | .reserved => (0, s)
  | .whole r o => (r.value, if r.rc = 0 then s else s.clearRc v b o counted)
  | .lower r o =>
    (r.value % 2 ^ 32,
      (let s := if r.latch then s.setLatch rq (base + o) (r.value / 2 ^ 32) else s
       if r.rc = 0 then s else s.clearRc v b o counted))
  | .upper r o =>
    match s.latchOf rq (base + o) with
    | some x => (x, s.dropLatch rq (base + o))
    | none => (r.value / 2 ^ 32, if r.rc / 2 ^ 32 = 0 then s else s.clearRc v b o counted)

/-- A read of the management space (R390, R391). -/
def State.mgmtRead (s : State) (rq : Requester) (addr size counted : Nat) : Nat × State :=
  match mgmtBlock addr with
  | some (b, off) => s.readBlk rq .mgmt b (addr - off) off size counted
  | none => if (size ≠ 4 ∧ size ≠ 8) ∨ addr % size ≠ 0 then (allOnes size, s.badAccess 0xFF addr) else (0, s)

/-- An LD's host reaches its BAR0: its link is in L0 and the LD is enabled. -/
def State.ldReach (s : State) (port ld : Nat) : Bool :=
  s.hubUp && decide (port < 8) && (s.port port).link == .l0 && s.ldEnabled port ld

/-- The partition that an LD's BAR0 shows; 64, which no partition is, for an LD without one (R389, R337). -/
def State.barPart (s : State) (port ld : Nat) : Nat :=
  if s.mgmt.phase = .safe then 64 else (s.pb.partOfLd (ldIdx port ld)).getD 64

/-- A read of BAR0 (R389). The CXL window holds what Table 2-6 states of it (R58). -/
def State.barRead (s : State) (port ld addr size counted : Nat) : Nat × State :=
  let rq := Requester.ld port ld
  let p := s.barPart port ld
  match barBlock p addr with
  | some (.cxl, _) =>
    if (size ≠ 4 ∧ size ≠ 8) ∨ addr % size ≠ 0 then (allOnes size, s.badAccess (s.rqPart rq) addr)
    else
      s.cxlRead (ldIdx port ld) addr size
  | some (.ring n, off) =>
    if (s.pb.ringOf? p n).isSome then s.readBlk rq (.host port ld) (.ring n) (addr - off) off size counted
    else if (size ≠ 4 ∧ size ≠ 8) ∨ addr % size ≠ 0 then (allOnes size, s.badAccess (s.rqPart rq) addr)
    else (0, s)
  | some (b, off) => s.readBlk rq (.host port ld) b (addr - off) off size counted
  | none => if (size ≠ 4 ∧ size ≠ 8) ∨ addr % size ≠ 0 then (allOnes size, s.badAccess (s.rqPart rq) addr) else (0, s)

/-- A read by a requester; without rights to the management space it is recorded and reads all ones. -/
def State.readReg (s : State) (rq : Requester) (addr size counted : Nat) : State :=
  match rq with
  | .ld port ld =>
    if !s.ldReach port ld then s
    else
      let r := s.barRead port ld addr size counted
      r.2.emit (.regValue rq addr size r.1)
  | _ =>
    if !s.mgmtUp || s.mgmt.phase == .recovery then s
    else if !s.mgmtRights rq then (s.badAccess 0xFF addr).emit (.regValue rq addr size (allOnes size))
    else
      let r := s.mgmtRead rq addr size counted
      r.2.emit (.regValue rq addr size r.1)

/-- The CXL.io IDE stream that carries a host's access, when its MAC check fails on it: the access is discarded and the stream becomes Insecure (R56). -/
def State.ioMacFail (s : State) (rq : Requester) (bad : Option IdeStream) : Option State :=
  match rq, bad with
  | .ld port ld, some st => if st != .cachemem && s.ldReach port ld && s.macChecked port st then some (s.macFail port st) else none
  | _, _ => none

/-- RC_READ: a read of a register returns its value and clears its RC fields, keeping the `counted` events of the same cycle (Table 0-3). -/
def execRcRead (via : ReqVia) (addr size counted : Nat) (s : State) : Out :=
  .next ((s.ioMacFail via.rq via.badMac).getD (s.readReg via.rq addr size counted))

/-- HALF_READ_LATCH: a 32-bit read; at the lower half of a 64-bit RO or RC register it latches the upper half (R12). -/
def execHalfReadLatch (via : ReqVia) (addr : Nat) (s : State) : Out :=
  .next ((s.ioMacFail via.rq via.badMac).getD (s.readReg via.rq addr 4 0))

/-! ### Writes (Table 0-3, R13, R390) -/

/-- The access that a write of `v` makes where it hits. -/
def Hit.access (h : Hit) (v : Nat) : Option (Nat × Access64) :=
  match h with
  | .whole r o => some (o, .full (v % 2 ^ (8 * r.width)))
  | .lower _ o => some (o, .lower (v % 2 ^ 32))
  | .upper _ o => some (o, .upper (v % 2 ^ 32))
  | _ => none

/-- The value of a whole access. -/
def accValue (a : Access64) : Nat :=
  match a with
  | .full v => v
  | .lower v => v
  | .upper v => v

/-- A write of a 64-bit register: `f` with the value it takes, once it takes one. -/
def State.take64 (s : State) (rq : Requester) (addr cur : Nat) (a : Access64) (f : State → Nat → State) : State :=
  match s.write64 rq addr cur a with
  | (some v, s) => f s v
  | (none, s) => s

/-- An RWL register: it takes a value until the prompt book has been applied; after that the write is ignored and recorded (Table 0-3, R13, R336). -/
def State.takeRwl (s : State) (rq : Requester) (addr cur : Nat) (a : Access64) (f : State → Nat → State) : State :=
  if s.mgmt.rwlLocked then s.badAccess (s.rqPart rq) addr else s.take64 rq addr cur a f

/-- RAS_CFG takes a value (Table 13-6). -/
def State.setRasCfg (s : State) (v : Nat) : State :=
  { s with ras := { s.ras with
      poisonOnly := bit v 40, markThresh := bits v 39 32, holdLimit := bits v 25 16, scrubNearH := bits v 15 8, scrubDeepH := bits v 7 0 } }

/-- NCTL_CFG or DCTL_CFG takes a value (Tables 12-5, 12-10). -/
def State.setCtlCfg (s : State) (c : Ctl) (v : Nat) : State :=
  s.modCtl c (fun d => { d with
    panicCap := bits v 39 32
    rdOffender := (match c with
      | .deep _ => bits v 31 24
      | .near _ => d.rdOffender)
    rdMit := bits v 23 12, panicLow := bits v 7 4, retrainLog2 := bits v 3 0 })

/-- A write that hits a register of the management space at offset `off` of block `b`. -/
def State.mgmtStore (s : State) (rq : Requester) (b : Blk) (addr off : Nat) (a : Access64) : State :=
  match b with
  | .part _ => s.badAccess (s.rqPart rq) addr
  | .ring _ => s.badAccess (s.rqPart rq) addr
  | .cue _ => s.badAccess (s.rqPart rq) addr
  | .tier _ => s.badAccess (s.rqPart rq) addr
  | .bud _ => s.badAccess (s.rqPart rq) addr
  | .pwr =>
    if off = 0 then s.writeCapModule (accValue a)
    else if off = 8 then s.take64 rq addr (fld s.pwr.hub 16 32 + fld s.pwr.dieB 16 16 + fld s.pwr.dieA 16 0) a State.writeCapDie
    else s
  | .ras => if off = 0 then s.takeRwl rq addr s.rasCfg a State.setRasCfg else s
  | .nctl n => if off = 0 then s.takeRwl rq addr (s.ctlCfg (.near n)) a (fun s v => s.setCtlCfg (.near n) v) else s
  | .dctl p =>
    if off = 0 then s.takeRwl rq addr (s.ctlCfg (.deep p)) a (fun s v => s.setCtlCfg (.deep p) v)
    else if off = 0x10 then
      s.take64 rq addr (s.ctl (.deep p)).xlateMa a (fun s v => s.setXlateMa p v)
    else s
  | .log =>
    if 0x100 ≤ off ∧ off < 0x120 then
      (if s.seqInLog (accValue a) then s.setBookmark ((off - 0x100) / 4) (accValue a) else s.badAccess (s.rqPart rq) addr)
    else s
  | .wq =>
    if off < 8 * 120 then
      s.take64 rq addr (s.wqStatus (off / 8) % 2 ^ 32) a (fun s v =>
        let s := s.writeMark (off / 8) (bits v 27 16)
        if bit v 32 then s.clearCrossed (off / 8) false else s)
    else s
  | .tst =>
    s.tstWrite addr (fun s =>
      if off < 8 * 120 then s.take64 rq addr (tabGet 0 s.wq.tstQ (off / 8)) a (fun s v => s.writeTstQ (off / 8) v)
      else if off = 0x400 then s.writeTstSync (accValue a)
      else if off = 0x404 then s.writeTstRef (accValue a)
      else if off = 0x408 then s.writeTstReplay (accValue a)
      else s)
  | .cxl => s
  | .caps => s
  | .thm => s
  | .gol => s
  | .cvn => s
  | .cld => s
  | .sec => s

/-- A write of the management space by a requester with rights (R390, R391). -/
def State.mgmtWriteReg (s : State) (rq : Requester) (addr size v : Nat) : State :=
  match mgmtBlock addr with
  | none => s.badAccess (s.rqPart rq) addr
  | some (b, off) =>
    let h := hit (s.regAt .mgmt b) off size
    match h.access v with
    | some (o, a) => s.mgmtStore rq b (addr - off + o) o a
    | none => if h = .bad then s.badAccess (s.rqPart rq) addr else s

/-- A write of BAR0 that hits a register (R389): the registers a host writes act as their own commands state; every other register is RO. -/
def State.barStore (s : State) (port ld : Nat) (b : Blk) (off : Nat) (a : Access64) : Out :=
  match b with
  | .part _ => if off = 0x10 then execPartReset port ld (accValue a) s else .next s
  | .ring n =>
    if off = 0x00 then execSqTailWrite port ld n (accValue a) s
    else if off = 0x04 then execCqHeadWrite port ld n (accValue a) s
    else if off = 0x14 then execRingReset port ld n (accValue a) s
    else if off = 0x18 then execRingIntMaskWrite port ld n (accValue a) s
    else .next (s.doorbell port ld n (fun _ _ => s))
  | .cue _ =>
    if off = 0x00 then execCueCurtain port ld (accValue a) s
    else if off = 0x08 then execCueSelect port ld a s
    else if off = 0x10 then execCueWeight port ld a s
    else .next s
  | .tier _ => if off < 0x400 then execTierHintWrite port ld (off / 4) (accValue a) s else .next s
  | .cxl => .next s
  | .bud _ => .next s
  | .pwr => .next s
  | .caps => .next s
  | .thm => .next s
  | .gol => .next s
  | .ras => .next s
  | .nctl _ => .next s
  | .dctl _ => .next s
  | .cvn => .next s
  | .cld => .next s
  | .sec => .next s
  | .log => .next s
  | .wq => .next s
  | .tst => .next s

/-- A write of BAR0 (R389). -/
def State.barWrite (s : State) (port ld addr size v : Nat) : Out :=
  match barBlock (s.barPart port ld) addr with
  | none => .next (s.badAccess (s.rqPart (.ld port ld)) addr)
  | some (b, off) =>
    if b = .cxl then
      (if (size ≠ 4 ∧ size ≠ 8) ∨ addr % size ≠ 0 then .next (s.badAccess (s.rqPart (.ld port ld)) addr) else .next s)
    else
      let h := hit (s.regAt (.host port ld) b) off size
      match h.access v with
      | some (o, a) => s.barStore port ld b o a
      | none =>
        if h = .bad then .next (s.badAccess (s.rqPart (.ld port ld)) addr)
        else match b with
          -- a write to any part of another partition's slot counts (R66)
          | .ring n => .next (s.doorbell port ld n (fun _ _ => s))
          | _ => .next s

/-- REGISTER_WRITE: a write takes effect as the access codes of its fields state (R10 to R13). -/
def execRegisterWrite (via : ReqVia) (addr size value : Nat) (s : State) : Out :=
  match s.ioMacFail via.rq via.badMac with
  | some t => .next t
  | none =>
    match via.rq with
    | .ld port ld => if s.ldReach port ld then s.barWrite port ld addr size value else .next s
    | rq => .next (s.mgmtWrite rq addr (fun s => s.mgmtWriteReg rq addr size value))

/-! ### REG_READ and REG_WRITE (Table 17-1) -/

/-- REG_READ. -/
def execRegRead (m : MgmtHdr) (addr width : Nat) (s : State) : Out :=
  .next (s.mgmtReq m 0x10 false (fun s =>
    if width ≠ 4 ∧ width ≠ 8 then CmdRes.range s
    else
      let r := s.mgmtRead .mgmt addr width 0
      { s := r.2, reply := { code := 0, vals := [r.1] } }))

/-- REG_WRITE. -/
def execRegWrite (m : MgmtHdr) (addr width value : Nat) (s : State) : Out :=
  .next (s.mgmtReq m 0x11 false (fun s =>
    if width ≠ 4 ∧ width ≠ 8 then CmdRes.range s else { s := s.mgmtWriteReg .mgmt addr width value }))

end Sys2Proof.Machine
end

