-- ==== Sys2Proof/Machine/Doe.lean ====
section
/-! DEFINITION. IDE keys, DOE, CDAT and SPDM (R36, R55 to R57, R318, R319). -/

namespace Sys2Proof.Machine

/-! ### IDE streams (R55) -/

/-- A stream the port has: one CXL.cachemem, one CXL.io link stream, four selective streams (R55). -/
def ideStreamOk (st : IdeStream) : Bool :=
  match st with
  | .selective n => decide (n < 4)
  | _ => true

/-- The LD of a port whose DOE instance carries an established SPDM session. -/
def State.sessionLd (s : State) (port session : Nat) : Option Nat :=
  (List.range 16).find? (fun l => s.ldReach port l && (s.ld (ldIdx port l)).spdm.any (fun x => x.id == session && x.established))

/-- IDE_KM_KEY_PROG: programs a stream's keys over a secured session. A stream without keys, or Insecure, becomes Secure with them; a Secure stream holds
them for the key-set change (R55, R56) (DEDUCED, log 118). -/
def execIdeKmKeyProg (port : Nat) (st : IdeStream) (session keySet : Nat) (s : State) : Out :=
  match s.sessionLd port session with
  | none => .next s
  | some l =>
    if !ideStreamOk st then .next s
    else
      let s := s.modIde port st (fun x =>
        if x.st == .secure then { x with next := some (keySet, x.key + 1) }
        else { st := .secure, key := x.key + 1, keySet := keySet, next := none })
      .next (s.emit (.spdm (.doe port l) { code := 3, vals := [keySet] }))

/-- IDE_KEY_SET_CHANGE: the stream switches to the keys that were programmed (R55). -/
def execIdeKeySetChange (port : Nat) (st : IdeStream) (s : State) : Out :=
  let x := s.ide port st
  if (s.port port).link ≠ .l0 || x.st != .secure then .next s
  else match x.next with
    | some (ks, k) => .next (s.modIde port st (fun x => { x with key := k, keySet := ks, next := none }))
    | none => .next s

/-! ### DOE (R57) -/

/-- The protocols of a DOE instance: vendor and type. -/
def doeProtocols : List (Nat × Nat) := [(0x0001, 0x00), (0x0001, 0x01), (0x0001, 0x02), (0x1E98, 0x02)]

/-- DOE_DISCOVERY: the protocol at an index and the next index, 0 after the last; past the last, vendor 0xFFFF (PRESUMED, log 22). -/
def execDoeDiscovery (port ld index : Nat) (s : State) : Out :=
  if !s.ldReach port ld then .next s
  else
    let x := (doeProtocols[index]?).getD (0xFFFF, 0)
    .next (s.emit (.doe port ld { code := 0, vals := [x.1, x.2, if index + 1 < doeProtocols.length then index + 1 else 0] }))

/-- DOE_UNKNOWN_OBJECT: a DOE error; the instance stays usable. -/
def execDoeUnknownObject (port ld vendor typ : Nat) (s : State) : Out :=
  if !s.ldReach port ld || doeProtocols.contains (vendor, typ) then .next s else .next (s.emit (.doeError port ld))

/-- One CDAT entry. -/
inductive Cdat where
  | dsmas (handle base size : Nat) (shareable readOnly : Bool)
  /-- Read latency in ns. -/
  | latency (handle ns : Nat)
  /-- Bandwidth in bytes per 10.24 µs window: a read entry or a write entry. -/
  | bandwidth (handle : Nat) (write : Bool) (bytes : Nat)
deriving DecidableEq, Repr

def Cdat.vals (c : Cdat) : List Nat :=
  match c with
  | .dsmas h b n sh ro => [0, h, fld (b2n ro) 1 6 + fld (b2n sh) 1 3, b, n]
  | .latency h ns => [1, h, 1, ns]
  | .bandwidth h w v => [1, h, if w then 5 else 4, v]

/-- HOST_EGRESS that the CDAT of an LD divides: the partition's guarantee, or a real-time partition's reservation, over all its LDs (R57, R243). -/
def State.egressOf (s : State) (p : Nat) : Nat :=
  if s.pb.isRt p then s.pb.partValue p 4 none else ((s.pb.ldsOf p).map (fun i => s.pb.budget (actLd i) 4 * s.scale 4 (i / 16) / 65536)).sum

/-- The CDAT of an LD (R57): for each window a DSMAS; for each range its latency and bandwidth (DEDUCED, log 119). -/
def State.cdat (s : State) (port ld : Nat) : List Cdat :=
  let spans := s.pb.layout (ldIdx port ld)
  let total := ((spans.filter (fun x => !x.apt)).map (·.size)).sum
  ((List.range spans.length).zip spans).flatMap (fun y =>
    let h := y.1
    let x := y.2
    let d := Cdat.dsmas h x.base x.size (x.rng.kind == 1 && !x.apt) (s.isSealed x.part x.idx)
    if x.apt then [d]
    else
      let bw := s.egressOf x.part * x.size / total
      [d, .latency h (if x.rng.regionId = 0 then 420 else 2200), .bandwidth h false bw, .bandwidth h true bw])

/-- CDAT_TABLE_ACCESS: entry 0 is the header with its sequence number; the others follow; each answer names the next entry (R57). -/
def execCdatTableAccess (port ld entry : Nat) (s : State) : Out :=
  if !s.ldReach port ld then .next s
  else
    let t := s.cdat port ld
    let next := if entry < t.length then entry + 1 else 0xFFFF
    if entry = 0 then .next (s.emit (.doe port ld { code := 0, vals := [next, (s.ld (ldIdx port ld)).cdatSeq, t.length] }))
    else match t[entry - 1]? with
      | some c => .next (s.emit (.doe port ld { code := 0, vals := next :: c.vals }))
      | none => .next (s.emit (.doeError port ld))

/-! ### SPDM (R318, R319) -/

/-- Response codes of SPDM and its error codes (PRESUMED, log 22). -/
def spdmVersion : Nat := 0x04
def spdmCapabilities : Nat := 0x61
def spdmAlgorithms : Nat := 0x63
def spdmCertificate : Nat := 0x02
def spdmChallengeAuth : Nat := 0x03
def spdmMeasurements : Nat := 0x60
def spdmKeyExchangeRsp : Nat := 0x64
def spdmFinishRsp : Nat := 0x65
def spdmHeartbeatAck : Nat := 0x68
def spdmKeyUpdateAck : Nat := 0x69
def spdmEndSessionAck : Nat := 0x6C
def spdmError : Nat := 0x7F
def spdmInvalidRequest : Nat := 0x01
def spdmInvalidSession : Nat := 0x02
def spdmBusy : Nat := 0x03
def spdmDecryptError : Nat := 0x06

/-- The responder at an end point answers: the LD is reached, or the processor runs. -/
def State.spdmUp (s : State) (ep : SpdmEp) : Bool :=
  match ep with
  | .doe port ld => s.ldReach port ld
  | .mctp => s.mgmtUp && s.mgmt.phase != .recovery

def State.spdmSend (s : State) (ep : SpdmEp) (code : Nat) (vals : List Nat) (data : Bytes) : State :=
  s.emit (.spdm ep { code := code, vals := vals, data := data })

/-- Answers a request: `f` acts when the responder runs. -/
def State.spdmReq (s : State) (ep : SpdmEp) (f : State → State) : State := if s.spdmUp ep then f s else s

def State.spdmFail (s : State) (ep : SpdmEp) (err : Nat) : State := s.spdmSend ep spdmError [err] []

def State.spdmSessions (s : State) (ep : SpdmEp) : List SpdmSess :=
  match ep with
  | .doe port ld => (s.ld (ldIdx port ld)).spdm
  | .mctp => s.sec.mctp

def State.modSpdm (s : State) (ep : SpdmEp) (f : List SpdmSess → List SpdmSess) : State :=
  match ep with
  | .doe port ld => s.modLd (ldIdx port ld) (fun l => { l with spdm := f l.spdm })
  | .mctp => { s with sec := { s.sec with mctp := f s.sec.mctp } }

/-- The running firmware image. -/
def State.runningFw (s : State) : Bytes := (s.nor s.mgmt.slot).fw

/-- GET_VERSION: SPDM 1.3. -/
def execGetVersion (ep : SpdmEp) (s : State) : Out := .next (s.spdmReq ep (fun s => s.spdmSend ep spdmVersion [0x1300] []))

/-- CERT, CHAL, MEAS with signature, ENCRYPT, MAC, KEY_EX, HBEAT and KEY_UPD, at SPDM's places (R318; PRESUMED, log 22). -/
def spdmCaps : Nat := 2 ^ 1 + 2 ^ 2 + 2 ^ 4 + 2 ^ 6 + 2 ^ 7 + 2 ^ 9 + 2 ^ 13 + 2 ^ 14

/-- GET_CAPABILITIES. -/
def execGetCapabilities (ep : SpdmEp) (s : State) : Out := .next (s.spdmReq ep (fun s => s.spdmSend ep spdmCapabilities [spdmCaps] []))

/-- What a negotiation selects of the algorithms offered: the one the module supports, when it is offered. -/
def spdmPick (offered ours : Nat) : Nat := if bit offered ours then 2 ^ ours else 0

/-- NEGOTIATE_ALGORITHMS: P-521 (bit 8), SHA-512 (bit 2), secp521r1 (bit 5) and AES-256-GCM (bit 1) (R318; PRESUMED, log 22). -/
def execNegotiateAlgorithms (ep : SpdmEp) (asym hash dhe aead : Nat) (s : State) : Out :=
  .next (s.spdmReq ep (fun s => s.spdmSend ep spdmAlgorithms [spdmPick asym 8, spdmPick hash 2, spdmPick dhe 5, spdmPick aead 1] []))

/-- GET_CERTIFICATE: a part of the chain in slot 0; slots 1 to 7 are empty. -/
def execGetCertificate (ep : SpdmEp) (slot off len : Nat) (s : State) : Out :=
  .next (s.spdmReq ep (fun s =>
    let c := Config.certChain s.runningFw
    if slot ≠ 0 ∨ c.length ≤ off then s.spdmFail ep spdmInvalidRequest
    else
      let d := (c.drop off).take len
      s.spdmSend ep spdmCertificate [d.length, c.length - off - d.length] d))

/-- CHALLENGE: a signature by alias 3. -/
def execChallenge (ep : SpdmEp) (slot : Nat) (nonce : Bytes) (s : State) : Out :=
  .next (s.spdmReq ep (fun s =>
    if slot ≠ 0 then s.spdmFail ep spdmInvalidRequest else s.spdmSend ep spdmChallengeAuth [slot] (Config.aliasSign s.runningFw nonce)))

/-- The value of a measurement (Table 15-2) and whether it is raw. -/
def State.measurement (s : State) (index : Nat) : Bytes × Bool :=
  if index ≤ 3 then (Config.fwLayer index s.runningFw, false)
  else if index = 4 then (if s.mgmt.phase = .safe then [] else sha512 s.mgmt.pbImage, false)
  else if index = 5 then
    (leBytes 4 s.secStatus ++ leBytes 4 (imageSvn s.runningFw) ++ leBytes 4 s.pb.svn ++ leBytes 4 0, true)
  else (if s.sec.claimed then s.ownerHash else List.replicate 64 0, true)

/-- A DMTF measurement block: index, specification, size; value type with its raw bit, value size, value (PRESUMED, log 22). -/
def State.measBlock (s : State) (index : Nat) : Bytes :=
  let m := s.measurement index
  let typ := if index ≤ 3 then 1 else if index = 6 then 2 else 3
  leBytes 1 index ++ leBytes 1 1 ++ leBytes 2 (m.1.length + 3) ++ leBytes 1 (fld (b2n m.2) 1 7 + typ) ++ leBytes 2 m.1.length ++ m.1

/-- GET_MEASUREMENTS: index 0 asks for the number of blocks, 0xFF for all of them; signed on request (R319; PRESUMED, log 22). -/
def execGetMeasurements (ep : SpdmEp) (index : Nat) (signed : Bool) (nonce : Bytes) (s : State) : Out :=
  .next (s.spdmReq ep (fun s =>
    let go := fun (n : Nat) (blocks : Bytes) =>
      s.spdmSend ep spdmMeasurements [n, blocks.length] (blocks ++ (if signed then Config.aliasSign s.runningFw (blocks ++ nonce) else []))
    if index = 0 then go 6 []
    else if index = 0xFF then go 6 ([1, 2, 3, 4, 5, 6].flatMap s.measBlock)
    else if index ≤ 6 then go 1 (s.measBlock index)
    else s.spdmFail ep spdmInvalidRequest))

/-- KEY_EXCHANGE: opens a session, or BUSY beyond 4 at the end point (R318). -/
def execKeyExchange (ep : SpdmEp) (reqSession : Nat) (exch : Bytes) (s : State) : Out :=
  .next (s.spdmReq ep (fun s =>
    if 4 ≤ (s.spdmSessions ep).length then s.spdmFail ep spdmBusy
    else
      let id := s.sec.spdmNext
      let s := { s with sec := { s.sec with spdmNext := id + 1 } }
      let s := s.modSpdm ep (fun l => l ++ [{ id := id, established := false, phase := 0 }])
      s.spdmSend ep spdmKeyExchangeRsp [reqSession, id] (Config.aliasSign s.runningFw exch)))

/-- Acts on a session of an end point; without it the request is refused. -/
def State.withSession (s : State) (ep : SpdmEp) (session : Nat) (established : Bool) (f : State → State) : State :=
  s.spdmReq ep (fun s => if (s.spdmSessions ep).any (fun x => x.id == session && x.established == established) then f s else s.spdmFail ep spdmInvalidSession)

def State.dropSpdm (s : State) (ep : SpdmEp) (session : Nat) : State := s.modSpdm ep (fun l => l.filter (fun x => x.id != session))

/-- SPDM_FINISH: establishes the session; a MAC that fails ends it. -/
def execSpdmFinish (ep : SpdmEp) (session : Nat) (macOk : Bool) (s : State) : Out :=
  .next (s.withSession ep session false (fun s =>
    if macOk then
      (s.modSpdm ep (fun l => l.map (fun x => if x.id == session then { x with established := true } else x))).spdmSend ep spdmFinishRsp [session] []
    else (s.dropSpdm ep session).spdmFail ep spdmDecryptError))

/-- HEARTBEAT. -/
def execHeartbeat (ep : SpdmEp) (session : Nat) (s : State) : Out :=
  .next (s.withSession ep session true (fun s => s.spdmSend ep spdmHeartbeatAck [session] []))

/-- KEY_UPDATE: the session's keys are replaced. -/
def execKeyUpdate (ep : SpdmEp) (session : Nat) (s : State) : Out :=
  .next (s.withSession ep session true (fun s =>
    (s.modSpdm ep (fun l => l.map (fun x => if x.id == session then { x with phase := x.phase + 1 } else x))).spdmSend ep spdmKeyUpdateAck [session] []))

/-- END_SESSION. -/
def execEndSession (ep : SpdmEp) (session : Nat) (s : State) : Out :=
  .next (s.withSession ep session true (fun s => (s.dropSpdm ep session).spdmSend ep spdmEndSessionAck [session] []))

end Sys2Proof.Machine
end

