-- ==== Sys2Proof/Machine/FmApi.lean ====
section
/-! DEFINITION. FM API commands of the MLD port command set (R40, Table 2-2). -/

namespace Sys2Proof.Machine

/-! Further return codes of CXL 3.1 (R59; PRESUMED, log 22). -/

def mbInvalidHandle : Nat := 0x000E
def mbInvalidAddress : Nat := 0x000F
def mbInjectLimit : Nat := 0x0010

/-- The status of Table 0-4 that a mailbox or FM API command ends with (R14), by its CXL return code: OK for Success and a started background command,
CONFLICT for Busy as Table 17-1 has it, BAD_DESCRIPTOR for what names an illegal value; the spec states none for the others
(DESIGN CHOICE, log 28). -/
def mbStatus (code : Nat) : Nat :=
  if code = mbSuccess ∨ code = mbBackground then stOk
  else if code = mbBusy then stConflict
  else if code = mbInvalidInput ∨ code = mbUnsupported ∨ code = mbInvalidHandle ∨ code = mbInvalidAddress then stBadDescriptor
  else openStatus (16 + code)

/-- The port an FM API command names. -/
def fmPort (p : FmPath) : Nat :=
  match p with
  | .fmLd q => q
  | .i3c q => q
  | .other q _ => q

/-- The command reaches the module: the port's link is in L0, the LD is enabled, or the processor answers over I3C. -/
def State.fmUp (s : State) (p : FmPath) : Bool :=
  match p with
  | .fmLd q => s.hubUp && decide (q < 8) && (s.port q).link == .l0
  | .i3c q => s.mgmtUp && s.mgmt.phase != .recovery && decide (q < 8)
  | .other q l => s.ldReach q l

/-- Takes an FM API command: in safe mode a mailbox answers Media Disabled (R61); an LD that is not FM-owned answers Unsupported (Table 2-7). -/
def State.fmReq (s : State) (p : FmPath) (f : Nat → State → State × Reply) : State :=
  if !s.fmUp p then s
  else
    let mailbox := match p with
      | .i3c _ => false
      | _ => true
    let r := if mailbox && s.mgmt.phase == .safe then (s, { code := mbMediaDisabled })
      else match p with
        | .other _ _ => (s, { code := mbUnsupported })
        | _ => f (fmPort p) s
    r.1.emit (.fmApi p (mbStatus r.2.code) r.2)

/-- How many LDs a port enables. -/
def State.ldCount (s : State) (port : Nat) : Nat := countUp 16 (s.ldEnabled port)

/-- GET_LD_INFO: the port's DPA capacity in bytes and its number of enabled LDs. -/
def execGetLdInfo (p : FmPath) (s : State) : Out :=
  .next (s.fmReq p (fun q s =>
    (s, { code := mbSuccess, vals := [((List.range (s.ldCount q)).map (s.ldCap q)).sum, s.ldCount q] })))

/-- Capacity of each enabled LD of a port, in 256 MiB. -/
def State.ldAllocs (s : State) (port : Nat) : List Nat := (List.range (s.ldCount port)).map (fun l => s.ldCap port l / 0x10000000)

/-- GET_LD_ALLOCATIONS. -/
def execGetLdAllocations (p : FmPath) (s : State) : Out :=
  .next (s.fmReq p (fun q s => (s, { code := mbSuccess, vals := s.ldAllocs q })))

/-- SET_LD_ALLOCATIONS: Success when it equals the current allocation, otherwise Invalid Input, and the attempt is logged. The spec names no event for it:
BAD_ACCESS, whose VALUE is free (PRESUMED, log 22). -/
def execSetLdAllocations (p : FmPath) (alloc : List Nat) (s : State) : Out :=
  .next (s.fmReq p (fun q s =>
    if alloc = s.ldAllocs q then (s, { code := mbSuccess })
    else
      let r := s.draw
      (r.2.badAccess 0xFF r.1.toNat, { code := mbInvalidInput })))

/-- GET_QOS_CONTROL: the DevLoad marks of R54, in percent. -/
def execGetQosControl (p : FmPath) (s : State) : Out :=
  .next (s.fmReq p (fun _ s => (s, { code := mbSuccess, vals := [s.pb.mark1, s.pb.mark2, s.pb.mark3] })))

/-- A command that answers Unsupported. -/
def fmUnsupported (_ : Nat) (s : State) : State × Reply := (s, { code := mbUnsupported })

/-- SET_QOS_CONTROL. -/
def execSetQosControl (p : FmPath) (s : State) : Out := .next (s.fmReq p fmUnsupported)

/-- GET_QOS_STATUS: occupancy of the port's request entries, in whole percent. -/
def execGetQosStatus (p : FmPath) (s : State) : Out :=
  .next (s.fmReq p (fun q s => (s, { code := mbSuccess, vals := [s.entries q * 100 / 1024] })))

/-- GET_QOS_ALLOCATED_BW: each LD's current HOST_EGRESS guarantee as a fraction of the port's bandwidth in service, in 1/256; a port that is down has
none to guarantee: 0 (DEDUCED, log 132). -/
def execGetQosAllocatedBw (p : FmPath) (s : State) : Out :=
  .next (s.fmReq p (fun q s =>
    (s, { code := mbSuccess, vals := (List.range (s.ldCount q)).map (fun l => s.entitled (actLd (ldIdx q l)) clsHost * 256 / s.capNow clsHost q) })))

/-- SET_QOS_ALLOCATED_BW. -/
def execSetQosAllocatedBw (p : FmPath) (s : State) : Out := .next (s.fmReq p fmUnsupported)

/-- GET_QOS_BW_LIMIT: 255/256 for every LD. -/
def execGetQosBwLimit (p : FmPath) (s : State) : Out :=
  .next (s.fmReq p (fun q s => (s, { code := mbSuccess, vals := List.replicate (s.ldCount q) 255 })))

/-- SET_QOS_BW_LIMIT. -/
def execSetQosBwLimit (p : FmPath) (s : State) : Out := .next (s.fmReq p fmUnsupported)

end Sys2Proof.Machine
end

