-- ==== Sys2Proof/Machine/Reduce.lean ====
section
/-! DEFINITION. REDUCE and its join limit (R173, R174, R222, R223). -/

namespace Sys2Proof.Machine

/-- GROUP and RSEQ of a REDUCE. -/
def Op.rGroup (o : Op) : Nat := o.fieldAt 40 2
def Op.rSeq (o : Op) : Nat := o.fieldAt 36 4

/-- Sends a REDUCE_JOIN; without a session it waits for one (R238). -/
def State.sendJoin (s : State) (peer act : Nat) (m : ColdonMsg) : State :=
  if (s.sess? peer).isSome then s.sendSeq peer act m
  else { s with cav := { s.cav with
    nextTag := s.cav.nextTag + 1
    remote := s.cav.remote ++ [{ rtag := s.cav.nextTag % 2 ^ 32, peer := peer, acc := s.cav.nextAcc, msg := m, issuedAt := s.clk.hmesh, sent := false }]
    nextAcc := s.cav.nextAcc + 1 } }

/-- A REDUCE announces itself to the other members (R173). A second one with its GROUP and RSEQ in flight on this module does not join (DEDUCED, log 57). -/
def State.reduceBegin (s : State) (o : Op) (g : PbGroup) (k : Nat) : State :=
  let q := o.rSeq
  let count := o.fieldAt 32 4
  if ((s.redn? g.group q).bind (·.op)).isSome then s.endOp o.id stBadDescriptor 21 0
  else
    let s := if (s.redn? g.group q).isSome then s
      else { s with cav := { s.cav with redns := s.cav.redns ++ [{ group := g.group, rseq := q }] } }
    let s := (s.modRedn g.group q (fun r => { r with op := some o.id, joined := r.joined ++ [(k, o.flags, count)] })).modOp o.id
      (fun o => { o with phase := .running, stage := 1 })
    let s := g.members.foldl (fun s x => if x.1 = s.pb.moduleId then s else s.sendJoin x.1 o.part (.reduceJoin g.group q k o.flags count)) s
    match s.redn? g.group q with
    | none => s
    | some r =>
      match r.aborted with
      | some reason => s.abortRedn g.group q reason
      | none => if r.joined.all (fun j => redAgree (o.flags, count) j.2) then s else s.redMismatch g q

/-- Every member has joined: SRC is read, each segment goes to its member, and the own one is taken (R223). -/
def State.reduceSend (s : State) (o : Op) (g : PbGroup) (k : Nat) (src : Opd) : State :=
  let m := g.members.length
  let q := o.rSeq
  let count := o.fieldAt 32 4
  let fmt := bits o.flags 15 14
  let w := (redFmt fmt).2
  let per := 8192 / w
  let s := ((List.range m).zip g.members).foldl (fun s x =>
    let a := segStart m count x.1
    let b := segStart m count (x.1 + 1)
    if x.1 = k then
      s.redTake g.group q k a (redValues fmt (b - a) (s.opBytes o src (src.off + w * a) (w * (b - a))))
        ((List.range (b - a)).filterMap (fun i => if s.opBad o src (src.off + w * (a + i)) w then some (a + i) else none))
    else
      (List.range (ceilDiv (b - a) per)).foldl (fun s i =>
        let e := a + per * i
        let n := min per (b - e)
        let lines := ceilDiv (w * n) 64
        let bad := ((List.range lines).map (fun l =>
          let j := l * (64 / w)
          if s.opBad o src (src.off + w * (e + j)) (w * min (64 / w) (n - j)) then 2 ^ l else 0)).sum
        s.sendSeq x.2.1 o.part (.reduceData g.group k fmt q e bad (slice (s.opBytes o src (src.off + w * e) (w * n)) 0 (64 * lines)))) s) s
  let s := (s.noteReduced o.id true).chargeVector o.part (Config.vectorSlots 0x28 count)
  ((s.modRedn g.group q (fun r => { r with sentData := true })).modOp o.id (fun o => { o with stage := 2 })).redFinish g.group q

/-- Writes DST once every result it takes is there (R173). -/
def State.reduceWrite (s : State) (o : Op) (g : PbGroup) (k : Nat) (dst : Opd) : State :=
  let m := g.members.length
  let q := o.rSeq
  let count := o.fieldAt 32 4
  let a := if bit o.flags 11 then segStart m count k else 0
  let n := if bit o.flags 11 then segStart m count (k + 1) - a else count
  match s.redn? g.group q with
  | none => s
  | some r =>
    if r.result.length < n then s
    else s.withInputs o [] [dst.all] false (fun s o =>
      let w := (redFmt (bits o.flags 13 12)).2
      let cs : List Chunk := (List.range n).map (fun i => { off := dst.off + w * i, data := leBytes w (tabGet 0 r.result (a + i)), bad := setHas r.poison (a + i) })
      let s := s.modOp o.id (fun o => { o with poisoned := o.poisoned || cs.any (·.bad) })
      (((s.opStore o.id o.part dst cs).dropRedn g.group q).settleOp o.id false m))

/-- A REDUCE whose inputs end it leaves the group, and the others with it (DEDUCED, log 59). -/
def State.reduceLeft (s : State) (id : Nat) (g : PbGroup) (q : Nat) : State :=
  match s.op? id with
  | none => s
  | some o => if o.phase = .ended && ((s.redn? g.group q).bind (·.op)) == some id then (s.toGroup g actColdon (.reduceAbort g.group 1 q)).dropRedn g.group q else s

/-- REDUCE. -/
def execReduce (op : Nat) (s : State) : Out :=
  .next ((s.opTurn op 0x28 (fun s o =>
    match s.pb.group? o.rGroup, s.operand o 0, s.operand o 1 with
    | some g, some src, some dst =>
      match s.rankIn g with
      | none => s
      | some k =>
        let s := if o.stage = 0 then s.reduceBegin o g k else s
        match s.op? o.id, s.redn? o.rGroup o.rSeq with
        | some o, some r =>
          if o.phase = .ended then s
          else
            let s := if o.stage = 1 && decide (r.joined.length = g.members.length) then
                s.withInputs o [src.all] [] true (fun s o => s.reduceSend o g k src) else s
            let s := match s.op? o.id with
              | some o => if o.stage = 2 && o.phase == OpPhase.running then s.reduceWrite o g k dst else s
              | none => s
            s.reduceLeft o.id g o.rSeq
        | _, _ => s
    | _, _, _ => s)).settleTables)

/-- JOIN_TIMEOUT: JOIN_LIMIT has passed since admission and some member's descriptor is not matched (R174). -/
def execJoinTimeout (op : Nat) (s : State) : Out :=
  match s.op? op with
  | none => .next s
  | some o =>
    match s.pb.group? o.rGroup with
    | none => .next s
    | some g =>
      if o.opcode ≠ 0x28 ∨ o.phase = .ended ∨ !o.checked ∨ 2 ≤ o.stage ∨ s.clk.hmesh < o.checkedAt + 1400000 * g.joinLimit ∨
          (o.stage = 1 ∧ (s.redn? o.rGroup o.rSeq).any (fun r => decide (r.joined.length = g.members.length))) then .next s
      else
        let s := s.toGroup g actColdon (.reduceAbort g.group 0 o.rSeq)
        .next (if o.stage = 1 then s.endRedn g.group o.rSeq stAborted 29 else s.endOp op stAborted 29 0)

end Sys2Proof.Machine
end

