-- ==== Sys2Proof/Machine/Seal.lean ====
section
/-! DEFINITION. SEAL and UNSEAL: admission, tables, blocks one at a time, cavern regions (R107 to R111, R118 to R123, R131, R133, R168, R214, R394). -/

namespace Sys2Proof.Machine

/-! ### Admission (R108, R109, R168) -/

/-- The whole of a range-list entry, as an operand. -/
def wholeOpd (idx : Nat) (r : PbRange) : Opd := { idx := idx, rng := r, off := 0, len := r.size }

/-- An admitted operation has a destination in a range: SEAL, UNSEAL and an OPTIM with RESEAL whose W range, that range, was sealed at its admission do not count
(R168). -/
def State.writesRange (s : State) (x : Op) (p idx : Nat) : Bool :=
  x.part == p && x.checked && x.phase != .ended && x.opcode != 0x10 && x.opcode != 0x11 && !(x.resealed && x.sealIdx == idx) &&
     (s.needs x ++ x.declared).any (fun n => n.wr && paRange n.pa == idx)

/-- LDs that map a range, whose CDAT shows its read-only flag (R57). -/
def State.bumpCdat (s : State) (p : Nat) (r : PbRange) : State :=
  ((s.pb.ldsOf p).filter (fun i => bit r.ldMask i)).foldl (fun s i => s.modLd i (fun l => { l with cdatSeq := (l.cdatSeq + 1) % 2 ^ 32 })) s

/-- A SEAL takes the slots of its groups, lowest numbers first: their GEN counts up as they leave FREE (R120, R121) (DESIGN CHOICE, log 51). -/
def State.takeSlots (s : State) (o : Op) (r : PbRange) : State :=
  if bit o.flags 3 then s
  else
    let free := ((List.range 256).filter (fun n => (s.slot n).st == 0)).take (o.sealGroups (r.size / 4096))
    free.foldl (fun s n => s.modSlot n (fun g =>
      { st := 1, owner := o.part, fmt := b2n (bit o.flags 0), gen := (g.gen + 1) % 256, op := o.id, region := r.regionId != 0 })) s

/-- Slots an operation took, in ascending number. -/
def State.slotsOfOp (s : State) (id : Nat) : List Nat := (s.gol.slots.filter (fun x => x.2.st != 0 && x.2.op == id && !x.2.imp)).map (·.1)

/-- Puts an operation in the queue of a range, which counts as sealed from here on (R108, R109). -/
def State.enqueueSeal (s : State) (o : Op) (idx : Nat) : State :=
  let l := s.gol.sealedRanges
  let has := l.any (fun r => r.part == o.part && r.range == idx)
  let new := if has then
      l.map (fun (r : SealedRange) => if r.part == o.part && r.range == idx then { r with queue := r.queue ++ [o.id], keep := r.queue } else r)
    else l ++ [{ part := o.part, range := idx, fmt := b2n (bit o.flags 0), replica := bit o.flags 2, groups := [], queue := [o.id] }]
  { s with gol := { s.gol with sealedRanges := new } }

/-- Admits a SEAL when no admitted operation writes its range and its slots are free (R120, R168). A VERSIONED region's version, not the range, is
sealed, from its reservation on (R214) (DEDUCED, log 52). -/
def State.admitSeal (s : State) (o : Op) : State :=
  match s.pb.range? o.part o.entry with
  | none => s
  | some r =>
    if o.sealAdmitted || s.disp.ops.any (fun x => s.writesRange x o.part o.entry) then s
    else
      let home := r.regionId == 0 || (match s.pb.region? r.regionId with | some g => s.isHome g | none => false)
      if home && s.slotsShort o r then s.endOp o.id stNoPermission 23 0
      else
        let s := (if home then s.takeSlots o r else s).modOp o.id (fun o => { o with sealAdmitted := true, phase := .running })
        if r.kind = 2 then s
        else
          let was := s.isSealed o.part o.entry
          let s := s.enqueueSeal o o.entry
          let s := if r.kind = 1 then (s.snoopSpan (r.addr o.entry 0 / 64) (r.size / 64) .inv).2 else s
          if was then s else s.bumpCdat o.part r

/-! ### Groups and tables (R119 to R122) -/

/-- First block of group g of D over B blocks. -/
def groupStart (blocks d g : Nat) : Nat := g * blocks / max d 1

def State.modSealed (s : State) (p idx : Nat) (f : SealedRange → SealedRange) : State :=
  { s with gol := { s.gol with sealedRanges := s.gol.sealedRanges.map (fun r => if r.part == p && r.range == idx then f r else r) } }

/-- The groups of a range let go of their slots and its block map is empty: it stays sealed, with every block RAW (R109). -/
def State.clearMap (s : State) (p idx : Nat) : State :=
  match s.pb.range? p idx with
  | none => s
  | some r =>
    let b := r.addr idx 0 / 4096
    let n := r.size / 4096
    let s : State := { s with mem := { s.mem with bmap := s.mem.bmap.filter (fun e => decide (e.1 < b) || decide (b + n ≤ e.1)) } }
    s.modSealed p idx (fun y => { y with groups := [], coded := [] })

/-- It is an operation's turn at the sealing engines of a range. -/
def State.sealTurn (s : State) (p idx id : Nat) : Bool := ((s.sealed? p idx).bind (fun r => r.queue.head?)) == some id

/-- An operation leaves the sealing engines of a range. -/
def State.leaveSeal (s : State) (p idx id : Nat) : State := s.modSealed p idx (fun r => { r with queue := r.queue.filter (· != id) })

/-- The group of a block of a sealed range, with its table. -/
def State.groupTable (s : State) (r : SealedRange) (blk : Nat) : Option (Nat × GSlot) :=
  match (r.groups.find? (fun g => decide (g.first ≤ blk) && decide (blk < g.past))).bind (·.cur) with
  | some n => some (n, s.slot n)
  | none => none

/-- Codes a block with the table of its group (R118). -/
def State.codeIn (s : State) (r : SealedRange) (blk : Nat) (bs : Bytes) : Form :=
  match s.groupTable r blk with
  | some (n, t) => codeBlock r.fmt n t.gen (some t.lens) bs
  | none => codeBlock r.fmt 0 0 none bs

/-- A slot gets its table and is LIVE, or goes back when its group has no table (R121). -/
def State.setTable (s : State) (n : Nat) (t : Option (List Nat)) : State :=
  s.modSlot n (fun g => match t with
    | some l => { g with st := 2, lens := (List.range 256).map (fun i => l[i]?.getD 0) }
    | none => { g with st := 0, owner := 0, lens := [], region := false })

/-- The tables of a SEAL from the bytes of the range's blocks (none: passed over), and its groups, which keep naming the slots they named (R119, R122). -/
def State.buildGroups (s : State) (o : Op) (r : PbRange) (first : Nat) (old : List Nat) (bytes : Nat → Option Bytes) : List GGroup × State :=
  let blocks := r.size / 4096
  let d := o.sealGroups blocks
  let slots := s.slotsOfOp o.id
  (List.range d).foldl (fun (acc : List GGroup × State) g =>
    let a := groupStart blocks d g
    let b := groupStart blocks d (g + 1)
    let t := buildTable (b2n (bit o.flags 0)) (2 ^ o.fieldAt 18 1) (b2n (bit o.flags 1)) ((List.range (b - a)).filterMap (fun i => bytes (a + i)))
    let n := slots[g]?.getD 0
    (acc.1 ++ [{ first := first + a, past := first + b, cur := t.map (fun _ => n), old := old }], acc.2.setTable n t)) ([], s)

/-- Plain bytes of a block of this module's deep tier, unless it holds a poisoned line or does not expand. -/
def State.cleanBlock (s : State) (blk : Nat) : Option Bytes :=
  if s.poisonOf blk != [] then none
  else match s.plainBlock blk with
    | .ok b => some b
    | .error _ => none

/-! ### The work of a SEAL on a range of the module's own deep tier -/

/-- The block map of a range that has no entries describes every block as it stands, in the format of the SEAL; a DIRTY near-tier copy is written back and CLEAN (R108,
R110, R395). -/
def State.mapRaw (s : State) (first n fmt : Nat) : State :=
  if s.mem.bmap.any (fun e => decide (first ≤ e.1) && decide (e.1 < first + n)) then s
  else (List.range n).foldl (fun s i =>
    let blk := first + i
    let s := match s.nearFind blk with
      | some t => if t.st == NearSt.dirty then (s.writeBack blk).nearMod blk (fun t => { t with st := .clean }) else s
      | none => s
    { s with mem := { s.mem with bmap := tabSet s.mem.bmap blk (rawForm [] fmt).ent } }) s

/-- The sealing engines begin the work of a SEAL: the block map, pass 1, and the list of blocks of pass 2 (R108, R119). -/
def State.beginSeal (s : State) (o : Op) (r : PbRange) : State :=
  let first := r.addr o.entry 0 / 4096
  let n := r.size / 4096
  let s := (s.mapRaw first n (b2n (bit o.flags 0))).modSealed o.part o.entry (fun x => { x with fmt := b2n (bit o.flags 0), replica := bit o.flags 2 })
  let s := if bit o.flags 3 then s
    else
      let old := (((s.sealed? o.part o.entry).map (·.groups)).getD []).flatMap (fun g => g.cur.toList ++ g.old)
      let b := s.buildGroups o r first old.eraseDups (fun i => s.cleanBlock (first + i))
      b.2.modSealed o.part o.entry (fun x => { x with groups := b.1 })
  (s.regroup o.part o.entry true).modOp o.id (fun o => { o with stage := 1, work := List.range n })

/-- Blocks of a range that are GOLAS-E or LEGACY. -/
def State.codedIn (s : State) (first n : Nat) : Nat :=
  (s.mem.bmap.filter (fun e => decide (first ≤ e.1) && decide (e.1 < first + n) && (e.2.mode == modeGolas || e.2.mode == modeLegacy))).length

/-- Ends a SEAL whose blocks are done (R165). -/
def State.endSeal (s : State) (o : Op) (r : PbRange) : State :=
  let e := o.outcome false
  (s.leaveSeal o.part o.entry o.id).endOp o.id e.1 e.2 (s.codedIn (r.addr o.entry 0 / 4096) (r.size / 4096))

/-- A block that pass 2 leaves in the form it has, with its poison marks (R394). -/
def State.leaveBlock (s : State) (id blk : Nat) : State :=
  let stale := tabFind s.ras.gone blk == some true
  ({ s with mem := { s.mem with bmap := tabMod {} s.mem.bmap blk (fun e => { e with propagated := true }) } }).modOp id
    (fun o => { o with poisoned := true, stale := o.stale || stale })

/-- What reading a block by a sealing engine moves: the near-tier copy, or the sectors of the deep tier; a LEGACY block is decoded there (R129, R134). -/
def State.engineRead (s : State) (p blk : Nat) : State :=
  let ent := s.ent? blk
  if (s.nearFind blk).isSome then s.useNear blk 0 (4 * sectorsAbove ent) p
  else
    let n := (ent.map (·.sectors)).getD 16
    let s := if ent.any (fun e => e.mode == modeLegacy) then s.countLegacy else s
    s.useDeep blk 0 (4 * n) p

/-- What writing the new form of a block moves: its sectors in the deep tier, and in the near tier where a copy is replaced (R134). -/
def State.engineWrote (s : State) (p blk sectors above : Nat) : State :=
  (s.useDeep blk 0 (4 * sectors) p).useNear blk 0 (4 * above) p

/-- One block of pass 2, or of the adopt form (R108, R118, R131, R394). The adopt form classifies a block as it stands; one that is GOLAS-E from an earlier SEAL is expanded
first and its values classified (DESIGN CHOICE, log 139). -/
def State.sealBlock (s : State) (o : Op) (blk : Nat) : State :=
  match s.sealed? o.part o.entry with
  | none => s
  | some r =>
    match s.cleanBlock blk with
    | none => s.leaveBlock o.id blk
    | some bs =>
      let s := s.engineRead o.part blk
      if bit o.flags 3 then
        if ((s.ent? blk).map (·.mode)) == some modeLegacy then s
        else
          let a := adoptBlock bs
          let s := if a.legacy then s.countLegacy else s
          let s := if a.malformed then { s with gol := { s.gol with damaged := s.gol.damaged + 1 } } else s
          let marks := if a.malformed then (List.range 64).map (fun i => 64 * blk + i) else []
          (s.replaceBlock blk a.form r.replica true marks false).engineWrote o.part blk a.form.ent.sectors (sectorsAbove (some a.form.ent))
      else
        let f := s.codeIn r blk bs
        (s.replaceBlock blk f r.replica true [] false).engineWrote o.part blk f.ent.sectors f.ent.sectors

/-! ### Cavern regions, at their home module (R123, R214) -/

/-- Asks for a line of a version slot of a region, for an operation. -/
def State.askLine (s : State) (id : Nat) (x : Opd) (slot l : Nat) : Bool × State :=
  let line := x.line l
  match s.op? id with
  | none => (false, s)
  | some o =>
    if (tabFind o.got line).isSome then (true, s)
    else if setHas o.asked line then (false, s)
    else
      let s := (s.modOp id (fun o => { o with asked := setAdd o.asked line })).cvn (.opRd id line) x.rng.regionId slot (64 * l) o.part (.rd 1 false false)
      (((s.op? id).map (fun o => (tabFind o.got line).isSome)).getD false, s)

def State.askLines (s : State) (id : Nat) (x : Opd) (slot : Nat) (ls : List Nat) : Bool × State :=
  ls.foldl (fun (acc : Bool × State) l => let r := acc.2.askLine id x slot l; (acc.1 && r.1, r.2)) (true, s)

/-- Bytes and poison of a block fetched for an operation. -/
def Op.gotBlock (o : Op) (x : Opd) (b : Nat) : Bytes × List Nat :=
  let ls := (List.range 64).map (fun j => (j, tabGet ([], false) o.got (x.line (64 * b + j))))
  (ls.flatMap (fun l => slice l.2.1 0 64), (ls.filter (fun l => l.2.2)).map (·.1))

/-- The block of this module's deep tier that is block b of a slot's data units, when it holds it (R204, R205). -/
def State.ownCell (s : State) (g : PbRegion) (slot b : Nat) : Option Nat :=
  let off := 4096 * b
  let c := g.dataCell (off / unitBytes)
  if g.member c.1 = s.pb.moduleId then some ((s.shareBase + g.offset slot c.2 (off % unitBytes)) / 4096) else none

/-- Sends a FILL of a new slot to every other member, and fills this module's own rows (R211). -/
def State.fillAll (s : State) (o : Op) (g : PbRegion) (base new off len : Nat) : State :=
  g.members.foldl (fun s m =>
    if m = s.pb.moduleId then s.fillSlot g base new off len o.part
    else if (s.region g.rid).lostMembers.contains m then
      s.modOp o.id (fun o => { o with degraded := o.degraded || g.mode != 0, cvnBad := if g.mode = 0 then cvnWorse o.cvnBad 100 else o.cvnBad })
    else
      let a := s.newAcc { id := 0, who := .fill o.id, rid := g.rid }
      (a.2.modOp o.id (fun o => { o with left := o.left + 1 })).remoteSend m a.1 o.part (fun tag => .fill g.rid tag g.digest base new off len)) s

/-- Copies of a block of a cavern range near this module go, with its map entry (R124). -/
def State.dropForm (s : State) (blk : Nat) : State :=
  let s := ((s.keepExpands blk).nearDel blk).dropCopies blk
  { s with mem := { s.mem with bmap := tabDel s.mem.bmap blk } }

/-- Marks the entries that map a region sealed or not, on this module. -/
def State.markRegion (s : State) (o : Op) (rid fmt : Nat) (replica : Bool) (groups : Option (List GGroup)) : State :=
  let keep := s.gol.sealedRanges.filter (fun r => !(((s.pb.range? r.part r.range).map (·.regionId)) == some rid && r.queue.isEmpty))
  match groups with
  | none => { s with gol := { s.gol with sealedRanges := keep } }
  | some gs =>
    let ps := (s.pb.partitions.map (·.num)).flatMap (fun p =>
      let rs := s.pb.rangesOf p
      ((List.range rs.length).zip rs).filterMap (fun x => if x.2.regionId = rid ∧ x.2.kind = 2 then some (p, x.1) else none))
    { s with gol := { s.gol with sealedRanges := keep ++ (ps.filter (fun x => !keep.any (fun r => r.part == x.1 && r.range == x.2))).map (fun x =>
      { part := x.1, range := x.2, fmt := fmt, replica := replica, groups := if x.1 = o.part ∧ x.2 = o.entry then gs else [], queue := []
        coded := if x.1 = o.part ∧ x.2 = o.entry then o.coded else [] }) } }

/-- Ends the SEAL or UNSEAL of a region that failed on its way: its reservation and its slots go back. -/
def State.failRegion (s : State) (o : Op) (e : Nat × Nat) : State :=
  ((s.stopPublish o).stopSeal o.id).endOp o.id e.1 e.2 0

/-- A line of a slot that this module wrote as a holder, sent on to the mirror copy or as a delta to the parity line (R207). -/
def State.passOn (s : State) (acc : Nat) (g : PbRegion) (slot u within act : Nat) (old new : Bytes) (bad : Bool) : State :=
  if g.mode = 1 then
    match g.redCell u with
    | none => s
    | some c =>
      if g.member c.1 = s.pb.moduleId then (s.holderApply g slot c.2 within act (.full new bad)).2.2
      else if !s.cellOk g slot c then s.modAcc acc (fun a => { a with degraded := true })
      else s.sendStore acc g slot c.2 within act (g.member c.1) (.full new bad)
  else s.sendDelta acc g slot u within act [] (xorBytes old new) bad

/-- Stores the form of block b of a region in a slot: this module's own block in one step, with its redundancy; another holder's as WRITEs of its stored bytes. No message
carries a block-map entry, so a ZERO block goes there as zeros (R123, R205, R207) (DESIGN CHOICE, log 61). -/
def State.regionPut (s : State) (o : Op) (x : Opd) (g : PbRegion) (slot b : Nat) (f : Form) (replica keep : Bool) (marks : List Nat) : State :=
  match s.ownCell g slot b with
  | none =>
    let bytes := if f.ent.mode = modeZero then List.replicate 4096 0 else f.bytes
    (List.range (bytes.length / 64)).foldl (fun s j =>
      (s.modOp o.id (fun o => { o with left := o.left + 1 })).cvn (.opWr o.id) g.rid slot (4096 * b + 64 * j) o.part
        (.wr (slice bytes (64 * j) 64) (marks.contains j))) (s.dropForm (x.blk b))
  | some c =>
    let old := (List.range 64).map (fun j => (s.deepLine (64 * c + j)).1)
    let s := (((s.drainBlk c).replaceBlock c f replica keep (marks.map (64 * c + ·)) (!marks.isEmpty && keep)).dropForm (x.blk b)).engineWrote o.part c f.ent.sectors
      (sectorsAbove (some f.ent))
    if g.mode = 0 then s
    else
      let a := s.newAcc { id := 0, who := .opWr o.id, rid := g.rid, slot := slot, off := 4096 * b, act := o.part }
      let s := (List.range 64).foldl (fun s j =>
        let was := old[j]?.getD []
        let now := (s.deepLine (64 * c + j)).1
        if was = now ∧ !marks.contains j then s
        else s.passOn a.1 g slot (4096 * b / unitBytes) (4096 * b % unitBytes + 64 * j) o.part was now (marks.contains j))
        (a.2.modOp o.id (fun o => { o with left := o.left + 1 }))
      s.accCheck a.1

/-- Notes the slot that a block of a sealed region names now. -/
def codedPut (t : Tab Nat) (blk : Nat) (f : Form) : Tab Nat := if f.ent.mode = modeGolas then tabSet t blk f.ent.slot else tabDel t blk

/-- Codes or decodes the blocks of a region in a slot, and of a PRIVATE region lets go of the slots that no block names any more (R122, R123, R205). -/
def State.recodeRegion (s : State) (o : Op) (x : Opd) (g : PbRegion) (slot : Nat) : State :=
  let n := x.len / 4096
  let first := x.blk 0
  let un := o.opcode == 0x11
  let fmt := b2n (bit o.flags 0)
  let bytes := fun b => let v := o.gotBlock x b; if v.2.isEmpty then some v.1 else none
  let was := s.gol.sealedRanges.filter (fun r => ((s.pb.range? r.part r.range).map (·.regionId)) == some g.rid)
  let old := (was.flatMap (·.groups)).flatMap (fun y => y.cur.toList ++ y.old)
  let b := if un || bit o.flags 3 then ([], s) else s.buildGroups o x.rng first old.eraseDups bytes
  let r : SealedRange := { part := o.part, range := o.entry, fmt := fmt, replica := bit o.flags 2, groups := b.1, queue := [], coded := was.flatMap (·.coded) }
  let go := (List.range n).foldl (fun (acc : Tab Nat × State) i =>
    let blk := first + i
    let v := o.gotBlock x i
    match bytes i with
    | none =>
      let s := acc.2.modOp o.id (fun o => { o with poisoned := true })
      if un then (tabDel acc.1 blk, s.regionPut o x g slot i (rawForm v.1) false false v.2)
      else
        (acc.1, match s.ownCell g slot i with
          | some c => { s with mem := { s.mem with bmap := tabMod (rawForm [] fmt).ent s.mem.bmap c (fun e => { e with propagated := true }) } }
          | none => s)
    | some bs =>
      let a := if un then ({ form := rawForm bs } : Adopted) else if bit o.flags 3 then adoptBlock bs else { form := s.codeIn { r with groups := b.1 } blk bs }
      let s := acc.2
      let s := if a.legacy then s.countLegacy else s
      let s := if a.malformed then { s with gol := { s.gol with damaged := s.gol.damaged + 1 } } else s
      let was := match s.ownCell g slot i with
        | some c => ((s.ent? c).map (fun e => e.mode != modeRaw)).getD false
        | none => (tabFind acc.1 blk).isSome
      let s := if (if un then was else a.form.ent.mode == modeGolas || a.form.ent.mode == modeLegacy) then
          s.modOp o.id (fun o => { o with result := o.result + 1 }) else s
      (codedPut acc.1 blk a.form, s.regionPut o x g slot i a.form (!un && r.replica) (!un) (if a.malformed then List.range 64 else []))) (r.coded, b.2)
  let s := go.2.dropLocal o.part g.rid
  if g.kind = 0 then
    (s.modSealed o.part o.entry (fun y => { y with fmt := fmt, replica := r.replica, groups := b.1, coded := go.1 })).regroup o.part o.entry true
  else s.modOp o.id (fun o => { o with work := b.1.map (fun y => y.cur.getD 256), coded := go.1 })

/-- Groups of a region's SEAL, from the slots kept while its COMMIT is on its way. -/
def Op.regionGroups (o : Op) (x : Opd) (old : List Nat) : List GGroup :=
  let n := x.len / 4096
  let d := o.work.length
  ((List.range d).zip o.work).map (fun y =>
    { first := x.blk (groupStart n d y.1), past := x.blk (groupStart n d (y.1 + 1)), cur := if y.2 < 256 then some y.2 else none, old := old })

/-- The turn of the SEAL or UNSEAL of a cavern region at its home module: of a VERSIONED one, a publish of the whole region on the version current at
admission (R214); of a PRIVATE one, in place. -/
def State.regionTurn (s : State) (o : Op) (x : Opd) (g : PbRegion) : State :=
  let me := s.pb.moduleId
  let r := s.region g.rid
  let slot := if g.kind = 0 then 0 else o.rgnSlot
  if o.stage = 0 then
    if g.kind = 0 then s.modOp o.id (fun o => { o with phase := .running, stage := 3 })
    else
      let v := (r.current g.nslots).2
      (s.modOp o.id (fun o => { o with phase := .running, stage := 1, rgn := g.rid, rgnVersion := v })).homeTake g ⟨.op o.id, me, o.id, o.part, .reserve v true⟩
  else if o.stage = 1 then
    match o.rsp with
    | none => s
    | some (st, k, _) =>
      if st ≠ 0 then s.failRegion o (cvnStatus st)
      else
        let s := s.modOp o.id (fun o => { o with rsp := none, stage := 2, rgnSlot := k, degraded := o.degraded || s.noMirror g })
        s.fillAll o g (r.vs k).base k 0 0
  else if o.stage = 2 then
    if o.left ≠ 0 then s
    else if o.cvnBad ≠ 0 then s.failRegion o (cvnStatus o.cvnBad)
    else s.modOp o.id (fun o => { o with stage := 3 })
  else if o.stage = 3 then
    let a := s.askLines o.id x slot (List.range (x.len / 64))
    match a.2.op? o.id with
    | none => a.2
    | some o =>
      if !a.1 then a.2
      else if o.cvnBad ≠ 0 then a.2.failRegion o (cvnStatus o.cvnBad)
      else
        (a.2.recodeRegion o x g slot).modOp o.id (fun o => { o with stage := 5 })
  else if o.stage = 5 then
    -- every holder has acknowledged its blocks (R207)
    if o.left ≠ 0 then s
    else if g.kind = 0 then
      let e := o.outcome false
      let keep := ((s.sealed? o.part o.entry).map (fun y => y.keep.contains o.id)).getD false
      let s := s.leaveSeal o.part o.entry o.id
      let s := if o.opcode ≠ 0x11 then s else if keep then s.clearMap o.part o.entry else (s.unsealRange o.part o.entry).bumpCdat o.part x.rng
      s.endOp o.id e.1 e.2 o.result
    else if o.cvnBad ≠ 0 then s.failRegion o (cvnStatus o.cvnBad)
    else (s.modOp o.id (fun o => { o with stage := 4 })).homeTake g ⟨.op o.id, me, o.id, o.part, .commit o.rgnVersion o.rgnSlot (o.opcode != 0x11)⟩
  else
    match o.rsp with
    | none => s
    | some (st, _, _) =>
      if st ≠ 0 then s.failRegion o (cvnStatus st)
      else
        let old := ((s.gol.sealedRanges.filter (fun y => ((s.pb.range? y.part y.range).map (·.regionId)) == some g.rid)).flatMap (·.groups)).flatMap
          (fun y => y.cur.toList ++ y.old)
        -- tables of a superseded version stay named while a pin holds it
        let held := (List.range g.nslots).any (fun k => ((s.region g.rid).vs k).st == .held)
        let s := s.markRegion o g.rid (b2n (bit o.flags 0)) (bit o.flags 2)
          (if o.opcode = 0x11 then none else some (o.regionGroups x (if held then old.eraseDups else [])))
        let e := o.outcome false
        s.endOp o.id e.1 e.2 o.result

/-- The ends that the home module may give a SEAL or UNSEAL of a region (R120, R164, R214). -/
def homeEnds : List (Nat × Nat) := [(stOk, dtNone), (stOk, dtNone), (stPoisoned, 28), (stConflict, dtNone), (stNoPermission, 23)]

/-- SEAL or UNSEAL of a region whose home is another module, which carries it out: the spec names no message that takes it there. It waits for the home for as long as that
takes, and its end and its RESULT are what the home found, all of them open here (R123, R168, R214, R217) (DESIGN CHOICE, log 61). -/
def State.regionElsewhere (s : State) (o : Op) (g : PbRegion) : State :=
  if s.cld.unreachable.contains (s.homeOf g) then s.endOp o.id stPeerUnreachable 31 0
  else
    let d := s.draw
    let k := d.1.toNat
    let s := d.2.modOp o.id (fun o => { o with phase := .running, rgn := g.rid, degraded := o.degraded || s.noMirror g })
    if k % 2 = 0 then s
    else
      let e := homeEnds[k / 2 % 5]?.getD (stOk, dtNone)
      let n := k / 16 % (((s.pb.range? o.part o.entry).map (fun r => r.size / 4096)).getD 0 + 1)
      let s := if e.1 = stOk ∨ e.1 = stPoisoned then s.markRegion o g.rid (b2n (bit o.flags 0)) (bit o.flags 2) (if o.opcode = 0x11 then none else some []) else s
      s.endOp o.id e.1 e.2 (if e.1 = stOk ∨ e.1 = stPoisoned then n else 0)

/-! ### The commands -/

/-- SEAL: admitted when it can be, it begins its work when its turn at the sealing engines comes (R108, R109, R168). -/
def execSeal (op : Nat) (s : State) : Out :=
  .next ((s.opTurn op 0x10 (fun s o =>
    let s := s.admitSeal o
    match s.op? op, s.pb.range? o.part o.entry with
    | some o, some r =>
      if o.phase = .ended || !o.sealAdmitted then s
      else match (if r.regionId = 0 then none else s.pb.region? r.regionId) with
        | some g =>
          if !s.isHome g then s.regionElsewhere o g
          else if g.kind = 0 && !s.sealTurn o.part o.entry op then s
          else s.regionTurn o (wholeOpd o.entry r) g
        | none =>
          if !s.sealTurn o.part o.entry op then s
          else if o.stage = 0 then
            let q := if r.kind = 1 then s.snoopSpan (r.maBase / 64) (r.size / 64) .inv else (false, s)
            if q.1 then q.2 else q.2.beginSeal o r
          else if o.work.isEmpty then s.endSeal o r else s
    | _, _ => s)).settleTables)

/-- SEAL_ADMIT: a waiting SEAL is admitted (R168). -/
def execSealAdmit (op : Nat) (s : State) : Out := .next ((s.opTurn op 0x10 (fun s o => s.admitSeal o)).settleTables)

/-- DESCRIPTOR_FETCH (R68, R71). A SEAL that passes its checks, awaits no other operation and finds no writer of its range is admitted with them
(R168). -/
def execDescriptorFetch (s : State) : Out :=
  let r := s.fetchDesc
  .next (match r.2 with
    | some id => (r.1.opTurn id 0x10 (fun s o => s.admitSeal o)).settleTables
    | none => r.1)

/-- SEAL_BLOCK_REPLACE: the next block of a SEAL takes its new form in one step; after the last, the SEAL ends (R108). -/
def execSealBlockReplace (op : Nat) (s : State) : Out :=
  .next ((s.opTurn op 0x10 (fun s o =>
    match s.pb.range? o.part o.entry, o.work with
    | some r, i :: rest =>
      if o.stage ≠ 1 ∨ r.regionId ≠ 0 then s
      else
        let blk := r.addr o.entry (4096 * i) / 4096
        let w := s.blkReady op o.part blk
        if !w.1 then w.2
        else
          let s := ((w.2.sealBlock o blk).modOp op (fun o => { o with work := rest, held := none })).regroup o.part o.entry true
          (match s.op? op with
            | some o => if o.work.isEmpty then s.endSeal o r else s
            | none => s)
    | _, _ => s)).settleTables)

/-- One block of an UNSEAL: decoded and written back raw; what does not decode stays poisoned (R128, R133, R164). -/
def State.unsealBlock (s : State) (o : Op) (blk : Nat) : State :=
  let ent := s.ent? blk
  let marks := s.poisonOf blk
  let s := if marks.isEmpty then s else s.modOp o.id (fun o => { o with poisoned := true })
  let s := if ((ent.map (·.mode)).getD modeRaw) = modeRaw then s else s.modOp o.id (fun o => { o with result := o.result + 1 })
  let s := s.engineRead o.part blk
  let s := match s.plainBlock blk with
    | .ok bs => s.replaceBlock blk (rawForm bs) false false marks false
    | .error _ =>
      let stale := tabFind s.ras.gone blk == some true
      let bad := (List.range 64).map (fun i => 64 * blk + i)
      (s.modOp o.id (fun o => { o with poisoned := true, stale := o.stale || stale })).replaceBlock blk (rawForm ((bad.flatMap deadLine))) false false bad false
  s.engineWrote o.part blk 16 16

/-- UNSEAL: RESULT counts the blocks that were not raw (R133). A range that is not sealed is left as it is (R168) (DEDUCED, log 50). -/
def execUnseal (op : Nat) (s : State) : Out :=
  .next ((s.opTurn op 0x11 (fun s o =>
    match s.pb.range? o.part o.entry with
    | none => s
    | some r =>
      match (if r.regionId = 0 then none else s.pb.region? r.regionId) with
      | some g =>
        if !s.isHome g then s.regionElsewhere o g
        else if o.stage = 0 && !(if g.kind = 0 then s.isSealed o.part o.entry else (s.region g.rid).sealedCur) then s.endOp op stOk dtNone 0
        else
          let s := if o.stage = 0 then s.joinSeal o else s
          if g.kind = 0 && !s.sealTurn o.part o.entry op then s
          else s.regionTurn o (wholeOpd o.entry r) g
      | none =>
        let s := s.joinSeal o
        match s.sealed? o.part o.entry with
        | none => s.endOp op stOk dtNone 0
        | some x =>
          if x.queue.head? ≠ some op then s
          else
            let first := r.maBase / 4096
            let blks := (List.range (r.size / 4096)).map (first + ·)
            let w := blks.foldl (fun (acc : Bool × State) b => let q := acc.2.blkReady op o.part b; (acc.1 && q.1, q.2)) (true, s)
            if !w.1 then w.2
            else
              let s := blks.foldl (fun s b => s.unsealBlock o b) (w.2.leaveSeal o.part o.entry op)
              -- a SEAL admitted after it keeps the range sealed, with no block-map entries (R109)
              let s := if x.keep.contains op then s.clearMap o.part o.entry
                else (s.unsealRange o.part o.entry).bumpCdat o.part r
              match s.op? op with
              | some o => let e := o.outcome false; s.endOp op e.1 e.2 o.result
              | none => s)).settleTables)

end Sys2Proof.Machine
end

