-- ==== Sys2Proof/Machine/Mailbox.lean ====
section
/-! DEFINITION. The primary mailbox of an LD (R59 to R61, R351, Table 2-7). -/

namespace Sys2Proof.Machine

/-- Takes a mailbox command of an LD that its host reaches: in safe mode it answers Media Disabled unless `inSafe` (R61). -/
def State.mbox (s : State) (port ld opcode : Nat) (inSafe : Bool) (f : State → State × Reply) : State :=
  if !s.ldReach port ld then s
  else
    let r := if s.mgmt.phase == .safe && !inSafe then (s, { code := mbMediaDisabled }) else f s
    r.1.emit (.mailbox port ld opcode (mbStatus r.2.code) r.2)

/-- A command that Table 2-7 answers with Unsupported. -/
def State.mboxUnsupported (s : State) (port ld opcode : Nat) : State := s.mbox port ld opcode false (fun s => (s, { code := mbUnsupported }))

/-- A reply of Success. -/
def mbReply (vals : List Nat) : Reply := { code := mbSuccess, vals := vals }

/-! ### Information -/

/-- IDENTIFY: vendor and device IDs and the serial number (Tables 2-6, 2-7). -/
def execIdentify (port ld : Nat) (s : State) : Out :=
  .next (s.mbox port ld 0x0001 true (fun s => (s, { code := mbSuccess, vals := [ldIdentity.vendor, ldIdentity.device], data := Config.serial })))

/-- Opcode of a background command. -/
def BgCmd.opcode (b : BgCmd) : Nat := if b.kind = 0 then 0x4400 else if b.kind = 1 then 0x4401 else 0x4304

/-- BACKGROUND_OPERATION_STATUS: the command that runs on the partition and its progress in whole percent, a value that time gives: free, from 0 to 100
(DESIGN CHOICE, log 7); nothing runs: one 0. -/
def execBackgroundOperationStatus (port ld : Nat) (s : State) : Out :=
  .next (s.mbox port ld 0x0002 false (fun s =>
    match (s.part (s.barPart port ld)).bg with
    | some b =>
      let r := s.draw
      (r.2, mbReply [1, b.opcode, r.1.toNat % 101])
    | none => (s, mbReply [0])))

/-- GET_RESPONSE_MESSAGE_LIMIT: 4 KiB. -/
def execGetResponseMessageLimit (port ld : Nat) (s : State) : Out := .next (s.mbox port ld 0x0003 false (fun s => (s, mbReply [4096])))

/-! ### Event records (R351) -/

/-- A view's bookmark; before it is first moved it holds LOG_OLDEST as restored (DESIGN CHOICE, log 92). -/
def State.ldBookmark (s : State) (port ld log : Nat) : Nat := tabGet s.mgmt.logBase (s.ld (ldIdx port ld)).bmk log

def State.setLdBookmark (s : State) (port ld log v : Nat) : State := s.modLd (ldIdx port ld) (fun l => { l with bmk := tabSet l.bmk log v })

/-- The entries that the view of a log shows: those of its severity whose PART is the LD's partition or 0xFF. -/
def State.inView (s : State) (port ld log : Nat) (e : LogEnt) : Bool :=
  e.sev == log && (e.part == 0xFF || e.part == s.barPart port ld)

/-- Handle of an alert's record: above the 16 bits that name a callboard entry (DESIGN CHOICE, log 120). -/
def alertHandle (a : AlertRec) : Nat := 65536 + a.handle

/-- The kind of CXL event record that shows an entry: 0 General Media, 1 DRAM, 2 Memory Module (R289); 3 for a callboard entry that is none of these. -/
def LogEnt.recordKind (e : LogEnt) : Nat :=
  if e.cls ≠ 4 then 3
  else
    let ev := leAt e.record 0 1
    if ev = 0x02 ∨ ev = 0x04 ∨ ev = 0x0A then 1 else if ev = 0x06 then 2 else 0

/-- The DPA at which an LD maps the line that a General Media record names (R289); all ones when it maps none. -/
def State.recordDpa (s : State) (i : Nat) (e : LogEnt) : Nat :=
  let a := leAt e.record 8 8
  let none64 := 2 ^ 64 - 1
  if e.recordKind ≠ 0 then none64
  else if bit a 63 then
    ((s.pb.layout i).findSome? (fun x =>
      if x.apt || x.rng.regionId == 0 then none
      else (List.range (x.size / 256)).findSome? (fun u =>
        match s.cavAddr x.rng.regionId 0 (256 * u) with
        | some c => if c ≤ a % 2 ^ 58 ∧ a % 2 ^ 58 < c + 256 then some (x.base + 256 * u + (a % 2 ^ 58 - c)) else none
        | none => none))).getD none64
  else
    ((s.pb.layout i).findSome? (fun x =>
      if !x.apt && x.rng.regionId == 0 && decide (x.rng.maBase ≤ a) && decide (a < x.rng.maBase + x.size) then some (x.base + (a - x.rng.maBase)) else none)).getD none64

/-- GET_EVENT_RECORDS: the entries of a log from its bookmark on, up to `max`, with the overflow flag, whether more remain, and LOST. An overtaken
bookmark moves to LOG_OLDEST. The Warning log also shows the LD's alerts (Table 2-7). Of each record: its handle, its kind and its DPA (DESIGN CHOICE,
DESIGN CHOICE, log 120). -/
def execGetEventRecords (port ld log max : Nat) (s : State) : Out :=
  .next (s.mbox port ld 0x0100 true (fun s =>
    if 4 ≤ log then (s, { code := mbInvalidInput })
    else
      let r := s.logFrom (s.ldBookmark port ld log)
      let s := if r.1 = 0 then s else s.setLdBookmark port ld log s.mgmt.logOldest
      let es := r.2.filter (s.inView port ld log)
      let i := ldIdx port ld
      let al := if log = 1 then (s.ld i).alerts else []
      let out := (es.map (fun e => (e.seq % 65536, e.recordKind, s.recordDpa i e, e.bytes)) ++
        al.map (fun a => (alertHandle a, if a.media then 0 else 2, 2 ^ 64 - 1, leBytes 4 (a.value % 2 ^ 32).toNat)))
      let shown := out.take max
      (s, { code := mbSuccess, vals := [b2n (r.1 != 0), b2n (decide (max < out.length)), r.1, shown.length] ++ shown.flatMap (fun x => [x.1, x.2.1, x.2.2.1]),
            data := shown.flatMap (fun x => x.2.2.2) })))

/-- CLEAR_EVENT_RECORDS: the bookmark moves past the cleared handles; a handle that the view does not hold is invalid. -/
def execClearEventRecords (port ld log : Nat) (handles : List Nat) (s : State) : Out :=
  .next (s.mbox port ld 0x0101 false (fun s =>
    if 4 ≤ log then (s, { code := mbInvalidInput })
    else
      let es := (s.logFrom (s.ldBookmark port ld log)).2.filter (s.inView port ld log)
      let al := if log = 1 then (s.ld (ldIdx port ld)).alerts else []
      if !handles.all (fun h => es.any (fun e => e.seq % 65536 == h) || al.any (fun a => alertHandle a == h)) then (s, { code := mbInvalidHandle })
      else
        let s := if log = 1 then s.modLd (ldIdx port ld) (fun l => { l with alerts := l.alerts.filter (fun a => !handles.contains (alertHandle a)) }) else s
        match (es.filter (fun e => handles.contains (e.seq % 65536))).getLast? with
        | some e => (s.setLdBookmark port ld log ((e.seq + 1) % 2 ^ 32), mbReply [])
        | none => (s, mbReply [])))

/-- GET_EVENT_INTERRUPT_POLICY: which of the four logs signal, and their vector, 0 (R75). -/
def execGetEventInterruptPolicy (port ld : Nat) (s : State) : Out :=
  .next (s.mbox port ld 0x0102 false (fun s =>
    let p := (s.ld (ldIdx port ld)).evPolicy
    (s, mbReply ((List.range 4).map (fun i => b2n (p[i]?.getD false)) ++ [0]))))

/-- SET_EVENT_INTERRUPT_POLICY. -/
def execSetEventInterruptPolicy (port ld : Nat) (signal : List Bool) (s : State) : Out :=
  .next (s.mbox port ld 0x0103 false (fun s => (s.modLd (ldIdx port ld) (fun l => { l with evPolicy := signal.take 4 }), mbReply [])))

/-! ### Firmware, time and logs -/

/-- GET_FW_INFO: two slots, the slot that runs, and their revisions. -/
def execGetFwInfo (port ld : Nat) (s : State) : Out :=
  .next (s.mbox port ld 0x0200 true (fun s =>
    (s, { code := mbSuccess, vals := [2, s.mgmt.slot],
          data := [0, 1].flatMap (fun n => if (s.nor n).fwSt = .empty then List.replicate 16 0 else slice (Config.fwRevision (s.nor n).fw) 0 16) })))

/-- TRANSFER_FW. -/
def execTransferFw (port ld : Nat) (s : State) : Out := .next (s.mboxUnsupported port ld 0x0201)

/-- ACTIVATE_FW. -/
def execActivateFw (port ld : Nat) (s : State) : Out := .next (s.mboxUnsupported port ld 0x0202)

/-- GET_TIMESTAMP: 0 before the first TIME_SET, then 2c + LOG_TIME_OFFSET in ns (R346). -/
def execGetTimestamp (port ld : Nat) (s : State) : Out :=
  .next (s.mbox port ld 0x0300 false (fun s =>
    (s, mbReply [if s.mgmt.timeKnown then ((((2 * s.clk.mgmt : Nat) : Int) + s.mgmt.timeOffset) % (2 ^ 64 : Int)).toNat else 0])))

/-- SET_TIMESTAMP. -/
def execSetTimestamp (port ld : Nat) (s : State) : Out := .next (s.mboxUnsupported port ld 0x0301)

/-- GET_SUPPORTED_LOGS: the Command Effects Log only, with its size. -/
def execGetSupportedLogs (port ld : Nat) (s : State) : Out :=
  .next (s.mbox port ld 0x0400 false (fun s => (s, mbReply [1, Config.commandEffectsLog.length])))

/-- GET_LOG: a part of the Command Effects Log, log 0. -/
def execGetLog (port ld log off len : Nat) (s : State) : Out :=
  .next (s.mbox port ld 0x0401 false (fun s =>
    if log ≠ 0 ∨ Config.commandEffectsLog.length < off + len then (s, { code := mbInvalidInput })
    else (s, { code := mbSuccess, data := (Config.commandEffectsLog.drop off).take len })))

/-- GET_LOG_CAPABILITIES: the Command Effects Log can be neither cleared nor populated. -/
def execGetLogCapabilities (port ld log : Nat) (s : State) : Out :=
  .next (s.mbox port ld 0x0402 false (fun s => if log ≠ 0 then (s, { code := mbInvalidInput }) else (s, mbReply [0])))

/-- CLEAR_LOG: Invalid Input. -/
def execClearLog (port ld _log : Nat) (s : State) : Out := .next (s.mbox port ld 0x0403 false (fun s => (s, { code := mbInvalidInput })))

/-! ### The memory device -/

/-- IDENTIFY_MEMORY_DEVICE: total and volatile capacity in 256 MiB, persistent capacity, LSA size, poison-list maximum, injection limit. -/
def execIdentifyMemoryDevice (port ld : Nat) (s : State) : Out :=
  .next (s.mbox port ld 0x4000 false (fun s =>
    let c := s.ldCap port ld / 0x10000000
    (s, mbReply [c, c, 0, 0, 256, 64])))

/-- GET_PARTITION_INFO. -/
def execGetPartitionInfo (port ld : Nat) (s : State) : Out := .next (s.mboxUnsupported port ld 0x4100)

/-- SET_PARTITION_INFO. -/
def execSetPartitionInfo (port ld : Nat) (s : State) : Out := .next (s.mboxUnsupported port ld 0x4101)

/-- GET_LSA. -/
def execGetLsa (port ld : Nat) (s : State) : Out := .next (s.mboxUnsupported port ld 0x4102)

/-- SET_LSA. -/
def execSetLsa (port ld : Nat) (s : State) : Out := .next (s.mboxUnsupported port ld 0x4103)

/-- GET_HEALTH_INFO: health status (degraded), media status (Disabled in safe mode), life used not implemented, the hottest compute-die sensor in 1/16 °C
as two's complement, and the corrected errors of the partition's lines. -/
def execGetHealthInfo (port ld : Nat) (s : State) : Out :=
  .next (s.mbox port ld 0x4200 true (fun s =>
    (s, mbReply [b2n s.degraded, b2n (s.mgmt.phase == .safe), 0xFF, (s.hotCompute % 65536).toNat, (s.part (s.barPart port ld)).ceCount])))

/-- GET_ALERT_CONFIGURATION: for each threshold whether it is set, and its value. -/
def execGetAlertConfiguration (port ld : Nat) (s : State) : Out :=
  .next (s.mbox port ld 0x4201 false (fun s =>
    let l := s.ld (ldIdx port ld)
    (s, mbReply [b2n l.alertTemp.isSome, l.alertTemp.getD 0, b2n l.alertCe.isSome, l.alertCe.getD 0])))

/-- SET_ALERT_CONFIGURATION: thresholds in °C and in corrected errors. -/
def execSetAlertConfiguration (port ld : Nat) (temp ce : Nat) (s : State) : Out :=
  .next (s.mbox port ld 0x4202 false (fun s =>
    (s.modLd (ldIdx port ld) (fun l => { l with alertTemp := some temp, alertCe := some ce }), mbReply [])))

/-- GET_SHUTDOWN_STATE. -/
def execGetShutdownState (port ld : Nat) (s : State) : Out := .next (s.mboxUnsupported port ld 0x4203)

/-- SET_SHUTDOWN_STATE. -/
def execSetShutdownState (port ld : Nat) (s : State) : Out := .next (s.mboxUnsupported port ld 0x4204)

/-! ### Poison (R279, R286) -/

/-- The window of an LD that a DPA lies in, with the line at the tag pipelines. -/
def State.dpaLine (s : State) (port ld dpa : Nat) : Option (Span × Nat) :=
  ((s.pb.layout (ldIdx port ld)).find? (fun x => decide (x.base ≤ dpa) && decide (dpa < x.base + x.size))).map (fun x =>
    (x, x.rng.addr x.idx (dpa - x.base) / 64))

/-- Every line that carries a poison mark where its value is held. -/
def State.poisonedLines (s : State) : List Nat :=
  let held := (s.mem.merge.flatMap (fun x => x.2.map (·.line))).foldl setAdd []
  let own := (setUnion (setUnion s.mem.deepPoison s.mem.nearPoison) held).filter (fun l => (s.lineAt l).2)
  -- of a cavern-backed range, the lines that this module's hosts have marked
  setUnion own ((s.mem.poisonSrc.filter (fun e => isLocal (64 * e.1) && e.2 != 0)).foldl (fun acc e => setAdd acc e.1) [])

/-- The DPAs of the poisoned lines of an LD's ranges within `len` bytes from `dpa`, each with its line. -/
def State.poisonIn (s : State) (port ld dpa len : Nat) : List (Nat × Nat) :=
  let lines := s.poisonedLines
  (s.pb.layout (ldIdx port ld)).flatMap (fun x =>
    if x.apt then []
    else
      let a := x.rng.addr x.idx 0
      (lines.filter (fun l => decide (a ≤ 64 * l) && decide (64 * l < a + x.size))).filterMap (fun l =>
        let d := x.base + (64 * l - a)
        if dpa ≤ d ∧ d < dpa + len then some (d, l) else none))

/-- GET_POISON_LIST: up to 256 records of DPA and source, with the overflow flag. -/
def execGetPoisonList (port ld dpa len : Nat) (s : State) : Out :=
  .next (s.mbox port ld 0x4300 false (fun s =>
    let ps := s.poisonIn port ld dpa len
    let out := ps.take 256
    (s, mbReply ([b2n (decide (256 < ps.length)), out.length] ++ out.flatMap (fun x => [x.1, tabGet 0 s.mem.poisonSrc x.2])))))

/-- Marks a line as Injected; on a sealed range the block's PROPAGATED bit is set (R286). -/
def State.injectMark (s : State) (line : Nat) : State :=
  let s := s.setPoison line 2
  match s.ent? (line / 64) with
  | some e => { s with mem := { s.mem with bmap := tabSet s.mem.bmap (line / 64) { e with propagated := true } } }
  | none => s

/-- INJECT_POISON: Unsupported unless the security policy permits it; at most 64 lines. A cavern-backed line takes a poisoned write (PRESUMED, log 22). -/
def execInjectPoison (port ld dpa : Nat) (s : State) : Out :=
  .next (s.mbox port ld 0x4301 false (fun s =>
    if !s.pb.injectOk then (s, { code := mbUnsupported })
    else match s.dpaLine port ld dpa with
      | none => (s, { code := mbInvalidAddress })
      | some (x, line) =>
        if dpa % 64 ≠ 0 ∨ x.apt then (s, { code := mbInvalidInput })
        else if (s.part x.part).st ≠ 0 then (s, { code := mbBusy })
        else if 64 ≤ (s.mem.poisonSrc.filter (fun e => e.2 == 2)).length && tabGet 0 s.mem.poisonSrc line != 2 then (s, { code := mbInjectLimit })
        else if x.rng.regionId ≠ 0 then
          let b := s.drawBytes 64
          (({ b.2 with mem := { b.2.mem with poisonSrc := tabSet b.2.mem.poisonSrc line 2 } } : State).cvn .fire x.rng.regionId 0 (dpa - x.base) x.part (.wr b.1 true), mbReply [])
        else (s.injectMark line, mbReply [])))

/-- CLEAR_POISON: writes the 64 bytes and clears the mark; Invalid Input on a sealed range and on an aperture. -/
def execClearPoison (port ld dpa : Nat) (data : Bytes) (s : State) : Out :=
  .next (s.mbox port ld 0x4302 false (fun s =>
    match s.dpaLine port ld dpa with
    | none => (s, { code := mbInvalidAddress })
    | some (x, line) =>
      if dpa % 64 ≠ 0 || x.apt || s.isSealed x.part x.idx then (s, { code := mbInvalidInput })
      else if (s.part x.part).st ≠ 0 then (s, { code := mbBusy })
      else if x.rng.regionId ≠ 0 then (({ s with mem := { s.mem with poisonSrc := tabDel s.mem.poisonSrc line } } : State).cvn .fire x.rng.regionId 0 (dpa - x.base) x.part (.wr (slice data 0 64) false), mbReply [])
      else
        let s := s.storeLine x.part (s.hintAt x.rng x.idx (dpa - x.base)) line (.full (slice data 0 64) false) x.part
        ({ s with mem := { s.mem with poisonSrc := tabDel s.mem.poisonSrc line } }, mbReply [])))

/-! ### Background commands (R60, R61) -/

/-- Starts a background command of a partition: Busy while one runs. -/
def State.startBg (s : State) (p : Nat) (b : BgCmd) (f : State → State) : State × Reply :=
  if (s.part p).bg.isSome then (s, { code := mbBusy })
  else (f (s.modPart p (fun x => { x with bg := some b })), { code := mbBackground })

/-- GET_SCAN_MEDIA_CAPABILITIES: the estimated time; the spec gives no formula: a free value (DESIGN CHOICE, log 7). -/
def execGetScanMediaCapabilities (port ld _dpa _len : Nat) (s : State) : Out :=
  .next (s.mbox port ld 0x4303 false (fun s =>
    let r := s.draw
    (r.2, mbReply [r.1.toNat])))

/-- SCAN_MEDIA: the range is read at once, in the background. -/
def execScanMedia (port ld dpa len : Nat) (s : State) : Out :=
  .next (s.mbox port ld 0x4304 false (fun s =>
    if dpa % 64 ≠ 0 ∨ len % 64 ≠ 0 ∨ s.ldCap port ld < dpa + len then (s, { code := mbInvalidInput })
    else s.startBg (s.barPart port ld) { kind := 2, ldIdx := ldIdx port ld, base := dpa, len := len } id))

/-- GET_SCAN_MEDIA_RESULTS: the lines that the last scan found, by DPA. -/
def execGetScanMediaResults (port ld : Nat) (s : State) : Out :=
  .next (s.mbox port ld 0x4305 false (fun s => (s, mbReply (s.ld (ldIdx port ld)).scan)))

/-- Starts Sanitize or Secure Erase: the partition is fenced as a partition reset does it; while a reload runs, the command joins it (R60, R80). -/
def State.startErase (s : State) (p : Nat) (sanitize : Bool) : State :=
  if s.dataUp then s.startPartReset p true sanitize true
  else
    (s.modPart p (fun x => { x with reset := some (match x.reset with
      | some j => { j with newKey := true, sanitize := j.sanitize || sanitize, mailbox := true }
      | none => { newKey := true, sanitize := sanitize, mailbox := true, aborted := 0, discarded := 0, orphans := 0 }) })).logEv .partReset p 0 0 0

/-- SANITIZE (R60). -/
def execSanitize (port ld : Nat) (s : State) : Out :=
  .next (s.mbox port ld 0x4400 false (fun s =>
    let p := s.barPart port ld
    s.startBg p { kind := 0, ldIdx := ldIdx port ld, base := 0, len := 0 } (fun s => s.startErase p true)))

/-- SECURE_ERASE (R60). -/
def execSecureErase (port ld : Nat) (s : State) : Out :=
  .next (s.mbox port ld 0x4401 false (fun s =>
    let p := s.barPart port ld
    s.startBg p { kind := 1, ldIdx := ldIdx port ld, base := 0, len := 0 } (fun s => s.startErase p false)))

/-- The scrubber reads the lines of a scanned range with the symbol errors they meet, by their places in the range; a line without any reads clean (DEDUCED, log 47). -/
def State.scanLines (s : State) (b : BgCmd) (errs : List SymErr) : State :=
  ((errs.map (·.line)).eraseDups.filter (fun i => decide (64 * i < b.len))).foldl (fun s i =>
    match s.dpaLine (b.ldIdx / 16) (b.ldIdx % 16) (b.base + 64 * i) with
    | some (x, line) => if x.rng.regionId ≠ 0 then s else (s.readDeep line i errs).2
    | none => s) s

/-- BACKGROUND_COMMAND_DONE: a scan has read its range and leaves the lines that are uncorrectable; Sanitize and Secure Erase release the partition once
its reset has ended (R60) (DEDUCED, log 121). -/
def execBackgroundCommandDone (part : Nat) (errs : List SymErr) (s : State) : Out :=
  match (s.part part).bg with
  | none => .next s
  | some b =>
    if b.kind = 2 then
      let s := s.scanLines b errs
      let found := ((s.poisonIn (b.ldIdx / 16) (b.ldIdx % 16) b.base b.len).filter (fun x => tabGet 0 s.mem.poisonSrc x.2 == 0)).map (·.1)
      .next ((s.modLd b.ldIdx (fun l => { l with scan := found })).modPart part (fun x => { x with bg := none }))
    else if (s.part part).reset.isSome || (s.part part).st != 3 then .next s
    else .next ((s.modPart part (fun x => { x with bg := none, st := 0 })).vector0 part .partReset).noteEligible

/-! ### Commands of Table 2-7 that answer Unsupported -/

/-- GET_SECURITY_STATE. -/
def execGetSecurityState (port ld : Nat) (s : State) : Out := .next (s.mboxUnsupported port ld 0x4500)

/-- SET_PASSPHRASE. -/
def execSetPassphrase (port ld : Nat) (s : State) : Out := .next (s.mboxUnsupported port ld 0x4501)

/-- DISABLE_PASSPHRASE. -/
def execDisablePassphrase (port ld : Nat) (s : State) : Out := .next (s.mboxUnsupported port ld 0x4502)

/-- UNLOCK. -/
def execUnlock (port ld : Nat) (s : State) : Out := .next (s.mboxUnsupported port ld 0x4503)

/-- FREEZE_SECURITY_STATE. -/
def execFreezeSecurityState (port ld : Nat) (s : State) : Out := .next (s.mboxUnsupported port ld 0x4504)

/-- PASSPHRASE_SECURE_ERASE. -/
def execPassphraseSecureErase (port ld : Nat) (s : State) : Out := .next (s.mboxUnsupported port ld 0x4505)

/-- An opcode that Table 2-7 lists. -/
def mbListed (op : Nat) : Bool :=
  [0x0001, 0x0002, 0x0003, 0x0100, 0x0101, 0x0102, 0x0103, 0x0200, 0x0201, 0x0202, 0x0300, 0x0301, 0x0400, 0x0401, 0x0402, 0x0403, 0x4000,
   0x4100, 0x4101, 0x4102, 0x4103].contains op ||
  [0x4200, 0x4201, 0x4202, 0x4203, 0x4204, 0x4300, 0x4301, 0x4302, 0x4303, 0x4304, 0x4305, 0x4400, 0x4401, 0x4500, 0x4501, 0x4502, 0x4503,
   0x4504, 0x4505].contains op || (decide (0x5400 ≤ op) && decide (op ≤ 0x5409))

/-- UNSUPPORTED_OPCODE: an opcode that Table 2-7 does not list returns Unsupported, without side effect (R59); in safe mode Media Disabled (R61). -/
def execUnsupportedOpcode (port ld opcode : Nat) (s : State) : Out :=
  if mbListed opcode then .next s else .next (s.mboxUnsupported port ld opcode)

end Sys2Proof.Machine
end

