-- ==== Sys2Proof/Machine/Optim.lean ====
section
/-! DEFINITION. OPTIM: its presets, custom recipes, and the re-seal of W (R132, R171, R172, R197, R394). -/

namespace Sys2Proof.Machine

/-! ### FP32 operations of the vector unit, on bit patterns (R152) -/

def sub32 (a b : Nat) : Nat := f32Bits (fsub (f32 a) (f32 b))
def mul32 (a b : Nat) : Nat := f32Bits (fmul (f32 a) (f32 b))

/-- sign(c), with sign(0) = 0 (Table 7-13). -/
def sign32 (a : Nat) : Nat := uResult { opc := 0x11, d := 0, a := 0, b := 0, c := 0, pg := 0, pn := false, prec := 0 } a 0 0

/-- What one element of an OPTIM leaves: new w, m and v as FP32 patterns, none where the preset has no such array. -/
structure Updated where
  w : Nat
  m : Nat
  v : Option Nat
deriving DecidableEq, Repr

/-- Parameters of the presets (Table 7-12). -/
structure OptPar where
  lr : Nat
  b1 : Nat
  b2 : Nat
  eps : Nat
  wd : Nat
  c1 : Nat
  c2 : Nat
  gscale : Nat
deriving DecidableEq, Repr

def one32 : Nat := 0x3F800000

/-- ADAMW, in the order written; the quotient is FRCP followed by FMUL (Table 7-13). -/
def adamw (p : OptPar) (w g m v : Nat) : Updated :=
  let g := mul32 g p.gscale
  let m := add32 (mul32 p.b1 m) (mul32 (sub32 one32 p.b1) g)
  let v := add32 (mul32 p.b2 v) (mul32 (sub32 one32 p.b2) (mul32 g g))
  let q := mul32 (mul32 p.c1 m) (frcp (add32 (fsqrt (mul32 p.c2 v)) p.eps))
  { w := sub32 w (mul32 p.lr (add32 q (mul32 p.wd w))), m := m, v := some v }

/-- LION (Table 7-13). -/
def lion (p : OptPar) (w g m : Nat) : Updated :=
  let g := mul32 g p.gscale
  let c := add32 (mul32 p.b1 m) (mul32 (sub32 one32 p.b1) g)
  let w := sub32 w (mul32 p.lr (add32 (sign32 c) (mul32 p.wd w)))
  { w := w, m := add32 (mul32 p.b2 m) (mul32 (sub32 one32 p.b2) g), v := none }

/-- SGDM (Table 7-13). -/
def sgdm (p : OptPar) (w g m : Nat) : Updated :=
  let g := mul32 g p.gscale
  let m := add32 (mul32 p.b1 m) g
  { w := sub32 w (mul32 p.lr (add32 m (mul32 p.wd w))), m := m, v := none }

/-! ### One element -/

/-- What an element stores: element bits (none: its guard left it as it was) with poison, by array: 0 W, 2 M1, 3 M2, 4 the master. -/
abbrev OptOut := List (Nat × Option Nat × Bool)

def Op.optPar (o : Op) : OptPar :=
  { lr := o.extAt 0 4, b1 := o.extAt 4 4, b2 := o.extAt 8 4, eps := o.extAt 12 4, wd := o.extAt 16 4, c1 := o.extAt 20 4, c2 := o.extAt 24 4
    gscale := o.extAt 28 4 }

/-- A preset on element i: the draws go to M1, then M2, then W (R171). -/
def Op.preset (o : Op) (i : Nat) (w g m v : Nat × Bool) : OptOut :=
  let rnd := rndOf (bits o.flags 6 5)
  let sat := bit o.flags 4
  let u := if o.oAlgo = 0 then adamw o.optPar w.1 g.1 m.1 v.1 else if o.oAlgo = 1 then lion o.optPar w.1 g.1 m.1 else sgdm o.optPar w.1 g.1 m.1
  let mBad := g.2 || m.2
  let wBad := w.2 || mBad || (o.oAlgo == 0 && v.2)
  let e1 := toElem o.oS rnd sat (f32 u.m) (srInit (o.extAt 32 8) i)
  let e2 := match u.v with
    | some v => toElem o.oS rnd sat (f32 v) e1.2
    | none => (0, e1.2)
  let ew := toElem o.oW rnd sat (f32 u.w) e2.2
  [(2, some e1.1, mBad)] ++ (if u.v.isSome then [(3, some e2.1, g.2 || v.2)] else []) ++ [(0, some ew.1, wBad)] ++
    (if o.oMaster then [(4, some u.w, wBad)] else [])

/-- A custom recipe on element i: constants K8 to K15 from the extension record; a store of stream 0 also writes the master exactly (R197). -/
def Op.custom (o : Op) (i : Nat) (w g m v : Nat × Bool) : OptOut :=
  let env : RcEnv := {
    const := (List.range 16).map (fun j => if j < 8 then rcConst o.rcp j else o.extAt (4 * (j - 8)) 4)
    input := [w, g, m, v]
    fmt := [o.oW, o.oG, o.oS, o.oS]
    rnd := rndOf (bits o.flags 6 5)
    sat := bit o.flags 4 }
  let r := recipeRun o.rcp env (o.extAt 32 8) i
  let master := (recipeRun o.rcp { env with fmt := [0, o.oG, o.oS, o.oS] } (o.extAt 32 8) i).filter (fun x => x.1 == 0)
  r ++ (if o.oMaster then master.map (fun x => (4, x.2)) else [])

/-! ### Writing -/

/-- Format of an array. -/
def Op.optFmt (o : Op) (a : Nat) : Nat := if a = 0 then o.oW else if a = 4 then 0 else o.oS

/-- Chunks that the elements leave in an array. -/
def Op.optChunks (o : Op) (a off : Nat) (outs : List (Nat × OptOut)) : List Chunk :=
  outs.flatMap (fun x => (x.2.filter (fun e => e.1 == a)).map (fun e =>
    elemChunk (o.optFmt a) (off + elemBits (o.optFmt a) / 8 * x.1) e.2.1 e.2.2))

/-- Bytes of a block with what chunks write to its lines, and the lines they poison (by offset of the range-list entry). -/
def chunkBlock (cs : List Chunk) (b : Nat) (old : Bytes) : Bytes × List Nat :=
  let ls := (List.range 64).map (fun j => (j, chunkLine cs (64 * b + j)))
  (ls.flatMap (fun l => mergeBytes (slice old (64 * l.1) 64) l.2.1 l.2.2.1), (ls.filter (fun l => l.2.2.2)).map (·.1))

/-- New bytes of a block of W, its values read plain, with the lines that are poisoned (R132, R164). -/
def resealBytes (old : Except Damage Bytes) (marks : List Nat) (cs : List Chunk) (blk b : Nat) : Bytes × List Nat :=
  let o := match old with
    | .ok bs => bs
    | .error _ => (List.range 64).flatMap (fun i => deadLine (64 * blk + i))
  let c := chunkBlock cs b o
  (c.1, setUnion marks c.2)

/-- Counts a block that a re-seal stored, and the lines it poisoned (Table 5-6). -/
def State.countReseal (s : State) (id : Nat) (f : Form) (was now : Nat) : State :=
  let s := if now = 0 then s else s.modOp id (fun o => { o with poisoned := true })
  { s with
    gol := { s.gol with resealRaw := s.gol.resealRaw + b2n (f.ent.mode == modeRaw) }
    ras := { s.ras with poisoned := s.ras.poisoned + (now - was) } }

/-- Re-codes one block of a sealed W whole, with the current table of its group (R132, R172, R394) (DEDUCED, log 122). -/
def State.resealBlock (s : State) (o : Op) (x : Opd) (r : SealedRange) (cs : List Chunk) (b : Nat) : State :=
  let blk := x.blk b
  let was := (s.poisonOf blk).map (· - 64 * blk)
  let c := resealBytes (s.plainBlock blk) was cs blk b
  let marks := c.2.map (64 * blk + ·)
  let f := s.codeIn r blk c.1
  ((s.replaceBlock blk f r.replica true marks (!marks.isEmpty)).engineWrote o.part blk f.ent.sectors f.ent.sectors).countReseal o.id f was.length marks.length

/-- The same of a W whose range is backed by a PRIVATE cavern region that this module is home of: its engines code the block, and the form goes to its holder (R123, R132). -/
def State.resealFar (s : State) (o : Op) (x : Opd) (g : PbRegion) (r : SealedRange) (cs : List Chunk) (b : Nat) : State :=
  let blk := x.blk b
  let ls := (List.range 64).map (fun j => (j, s.opLine o x (64 * b + j)))
  let v := (ls.flatMap (fun l => slice l.2.1 0 64), (ls.filter (fun l => l.2.2)).map (·.1))
  let c := resealBytes (.ok v.1) v.2 cs blk b
  let f := s.codeIn r blk c.1
  let s := (s.regionPut o x g 0 b f r.replica true c.2).countReseal o.id f v.2.length c.2.length
  s.modSealed o.part x.idx (fun y => { y with coded := codedPut y.coded blk f })

/-- Writes W: each touched block of a sealed range is re-coded, otherwise as any write (R172). -/
def State.writeW (s : State) (o : Op) (x : Opd) (cs : List Chunk) : State :=
  let far := if x.rng.regionId = 0 then none else (s.pb.region? x.rng.regionId).filter s.isHome
  match s.sealed? o.part x.idx with
  | some r =>
    if x.rng.regionId ≠ 0 && far.isNone then s.opStore o.id o.part x cs
    else
      ((spanBlks x.off x.len).foldl (fun s b => match far with
        | some g => s.resealFar ((s.op? o.id).getD o) x g r cs b
        | none => s.resealBlock o x r cs b) s |>.regroup o.part x.idx true).leaveSeal o.part x.idx o.id
  | none => (s.opStore o.id o.part x cs).leaveSeal o.part x.idx o.id

/-- Charges the vector slots of an OPTIM: those of its recipe; a preset's the spec does not list (R194). -/
def State.chargeOptim (s : State) (o : Op) : State :=
  if o.oAlgo = 3 then s.chargeRecipe o.part o.rcp (ceilDiv o.oN 128) else s.chargeVector o.part (Config.vectorSlots (0x2200 + o.oAlgo) o.oN)

/-- OPTIM. -/
def execOptim (op : Nat) (s : State) : Out :=
  .next ((s.opTurn op 0x22 (fun s o =>
    match s.operand o 0 with
    | none => s
    | some w =>
      let g := s.operand o 1
      let m := s.operand o 2
      let v := s.operand o 3
      let master := if o.oMaster then s.operand o 4 else none
      let arrays := ([(0, w)] ++ m.toList.map (fun x => (2, x)) ++ v.toList.map (fun x => (3, x)) ++ master.toList.map (fun x => (4, x)) : List (Nat × Opd))
      let home := w.rng.regionId == 0 || (match s.pb.region? w.rng.regionId with | some g => s.isHome g | none => false)
      let reseal := s.isSealed o.part w.idx && home
      -- a re-seal waits for its turn at the sealing engines (R109), and reads W for the values of a block it does not update
      let s := if reseal then s.joinSeal o else s
      if reseal && !s.sealTurn o.part w.idx op then s
      else
        -- a custom rule reads the streams that its LDs name (R186)
        let rd := fun (j : Nat) (x : Option Opd) => if o.oAlgo = 3 && !rcReads o.rcp j then [] else x.toList.map Opd.all
        let wIn := if reseal then [(w, 4096 * (w.off / 4096), 4096 * ceilDiv (w.off % 4096 + w.len) 4096)] else if o.oMaster then [] else rd 0 (some w)
        let wr := arrays.map (fun a => a.2.all)
        s.withInputs o (wIn ++ rd 1 g ++ rd 2 m ++ rd 3 v ++ rd 0 master) wr true (fun s o =>
          let wAt := fun i => if o.oMaster then s.elemIn o master 0 (4 * i) else s.elemIn o (some w) o.oW (elemBits o.oW / 8 * i)
          let at_ := fun (x : Option Opd) (f i : Nat) => s.elemIn o x f (elemBits f / 8 * i)
          let outs := (List.range o.oN).map (fun i =>
            let a := (wAt i, at_ g o.oG i, at_ m o.oS i, at_ v o.oS i)
            (i, if o.oAlgo = 3 then o.custom i a.1 a.2.1 a.2.2.1 a.2.2.2 else o.preset i a.1 a.2.1 a.2.2.1 a.2.2.2))
          let n := (outs.flatMap (·.2)).filter (fun e => e.1 == 0 && (match e.2.1 with | some b => elemSpecial o.oW b | none => false))
          let bad := (outs.flatMap (·.2)).any (fun e => e.2.2)
          let s := (s.noteReduced o.id true).modOp o.id (fun o => { o with poisoned := o.poisoned || bad })
          let s := s.chargeOptim o
          let s := arrays.foldl (fun s a =>
            let cs := o.optChunks a.1 a.2.off outs
            if a.1 = 0 then s.writeW o a.2 cs else s.opStore o.id o.part a.2 cs) s
          s.settleOp o.id false n.length))).settleTables)

end Sys2Proof.Machine
end

