-- ==== Sys2Proof/Machine/Publish.lean ====
section
/-! DEFINITION. PUBLISH, ACQUIRE and RELEASE (R180, R202, R211 to R217). -/

namespace Sys2Proof.Machine

/-- The region that an operation's REGION entry maps. -/
def State.regionOf (s : State) (o : Op) : Option PbRegion := (s.pb.range? o.part o.entry).bind (fun r => s.pb.region? r.regionId)

/-- Sends a region request to the home module, for an operation that keeps its answer (R202). -/
def State.askHome (s : State) (o : Op) (g : PbRegion) (stage : Nat) (here : State → State) (mk : Nat → ColdonMsg) : State :=
  let s := s.modOp o.id (fun o => { o with phase := .running, stage := stage, rgn := g.rid, rsp := none })
  if s.isHome g then here s
  else
    let a := s.newAcc { id := 0, who := .op o.id, rid := g.rid }
    a.2.remoteSend (s.homeOf g) a.1 o.part mk

/-- Ends a region operation with what the home module answered: VOUT takes the version, and RESULT its low 32 bits (R165, R180). Without a mirror the
completion is DEGRADED (R217). -/
def State.endRegionOp (s : State) (o : Op) (g : PbRegion) (vout : Option Opd) (st version : Nat) : State :=
  let s := s.modOp o.id (fun o => { o with degraded := o.degraded || s.noMirror g })
  let writes := st == 0 || st == 5 || st == 6 || st == 7
  match vout with
  | some x =>
    if !writes then let e := cvnStatus st; s.endOp o.id e.1 e.2 0
    else s.withInputs o [] [x.all] false (fun s o =>
      let s := s.opStore o.id o.part x [{ off := x.off, data := leBytes 8 version, bad := false }]
      (s.modOp o.id (fun o => { o with cvnBad := cvnWorse o.cvnBad st })).settleOp o.id false version)
  | none =>
    if st = 0 then s.endOp o.id stOk dtNone version else let e := cvnStatus st; s.endOp o.id e.1 e.2 0

/-- Gives a PUBLISH up on its way: nothing changes (R180). -/
def State.failPublish (s : State) (o : Op) (e : Nat × Nat) : State := (s.stopPublish o).endOp o.id e.1 e.2 0

/-- The span of a PUBLISH: lines it covers in part are read from the new slot, which holds the base's bytes; the others need SRC alone (R211). -/
def State.publishSpan (s : State) (o : Op) (g : PbRegion) (x src : Opd) : State :=
  let off := o.fieldAt 24 8
  let len := o.fieldAt 32 8
  let span : Span3 := (x, off, len)
  let a := s.askLines o.id x o.rgnSlot (partLines span)
  match a.2.op? o.id with
  | none => a.2
  | some o =>
    if o.cvnBad ≠ 0 then a.2.failPublish o (cvnStatus o.cvnBad)
    else if !a.1 then a.2
    else a.2.withInputs o [src.all] [] true (fun s o =>
      let s := s.noteReduced o.id (s.isSealed o.part src.idx)
      let cs := s.copyChunks o src src.off len off
      let s := (chunkLines cs).foldl (fun s l =>
        let v := chunkLine cs l
        let old := tabGet (List.replicate 64 0, false) o.got (x.line l)
        let full := v.2.1.all (fun b => b)
        (s.modOp o.id (fun o => { o with left := o.left + 1 })).cvn (.opWr o.id) g.rid o.rgnSlot (64 * l) o.part
          (.wr (if full then v.1 else mergeBytes old.1 v.1 v.2.1) (v.2.2 || (!full && old.2)))) s
      s.modOp o.id (fun o => { o with stage := 4 }))

/-- The slot of BASE, which FILL names (R211), as far as this module knows it: at the home module, from the partition's pin, or for version 1, which is in slot 0 (R209). -/
def State.baseSlot (s : State) (o : Op) (g : PbRegion) (k base : Nat) : Option Nat :=
  if s.isHome g then some ((s.region g.rid).vs k).base
  else match (s.part o.part).pins.find? (fun a => a.rid == g.rid && a.version == base) with
    | some a => some a.slot
    | none => if base = 1 then some 0 else none

/-- PART of the ACQUIRE by which a PUBLISH learns the slot of BASE. -/
def probePart : Nat := 0xFF

/-- PUBLISH: reserve, fill, write the span, commit (R211). The answer to RESERVE names the new slot alone; a requester that does not know BASE's slot asks for it with an
ACQUIRE of BASE that no partition holds, and releases that once its fills are sent (DESIGN CHOICE, log 34). -/
def execPublish (op : Nat) (s : State) : Out :=
  .next ((s.opTurn op 0x40 (fun s o =>
    match s.regionOf o, s.pb.range? o.part o.entry, s.operand o 0, s.operand o 1 with
    | some g, some r, some src, some vout =>
      let me := s.pb.moduleId
      let base := o.fieldAt 40 8
      let x := wholeOpd o.entry r
      if o.stage = 0 then
        s.askHome o g 1 (fun s => s.homeTake g ⟨.op o.id, me, o.id, o.part, .reserve base false⟩) (fun tag => .reserve g.rid tag g.digest base o.part)
      else if o.stage = 1 then
        match o.rsp with
        | none => s
        | some (0, k, _) =>
          let s := s.modOp o.id (fun o => { o with stage := 2, rsp := none, rgnSlot := k })
          (match s.baseSlot o g k base with
          | some b => s.fillAll o g b k (o.fieldAt 24 8) (o.fieldAt 32 8)
          | none =>
            let s := s.modOp o.id (fun o => { o with stage := 6 })
            let a := s.newAcc { id := 0, who := .op o.id, rid := g.rid }
            a.2.remoteSend (s.homeOf g) a.1 o.part (fun tag => .acquire g.rid tag g.digest base probePart))
        | some (st, _, v) => s.endRegionOp o g (some vout) st v
      else if o.stage = 6 then
        match o.rsp with
        | none => s
        | some (st, b, _) =>
          if st ≠ 0 then s.failPublish o (cvnStatus st)
          else
            let s := (s.modOp o.id (fun o => { o with stage := 2, rsp := none })).fillAll o g b o.rgnSlot (o.fieldAt 24 8) (o.fieldAt 32 8)
            let a := s.newAcc { id := 0, who := .fire, rid := g.rid }
            a.2.remoteSend (s.homeOf g) a.1 o.part (fun tag => .release g.rid tag g.digest probePart)
      else if o.stage = 2 then
        if o.left ≠ 0 then s
        else if o.cvnBad ≠ 0 then s.failPublish o (cvnStatus o.cvnBad)
        else s.modOp op (fun o => { o with stage := 3 })
      else if o.stage = 3 then s.publishSpan o g x src
      else if o.stage = 4 then
        if o.left ≠ 0 then s
        else if o.cvnBad ≠ 0 then s.failPublish o (cvnStatus o.cvnBad)
        else s.askHome o g 5 (fun s => s.homeTake g ⟨.op o.id, me, o.id, o.part, .commit base o.rgnSlot false⟩) (fun tag => .commit g.rid tag g.digest base o.part o.rgnSlot)
      else match o.rsp with
        | none => s
        | some (st, _, v) => s.endRegionOp o g (some vout) st v
    | _, _, _, _ => s)).settleTables)

/-- ACQUIRE: the pin moves with the answer, and copies of the old version go (R180, R213). -/
def execAcquire (op : Nat) (s : State) : Out :=
  .next ((s.opTurn op 0x41 (fun s o =>
    match s.regionOf o, s.operand o 1 with
    | some g, some vout =>
      let version := o.fieldAt 16 8
      if o.stage = 0 then
        s.askHome o g 1 (fun s => s.homeTake g ⟨.op o.id, s.pb.moduleId, o.id, o.part, .acquire version⟩) (fun tag => .acquire g.rid tag g.digest version o.part)
      else match o.rsp with
        | none => s
        | some (st, k, v) =>
          let s := if st = 0 ∧ o.stage = 1 then
              let s := if (s.part o.part).pins.any (fun a => a.rid == g.rid) then s.dropLocal o.part g.rid else s
              (s.modPart o.part (fun p => { p with pins := p.pins.filter (fun a => a.rid != g.rid) ++ [{ rid := g.rid, version := v, slot := k }] })).modOp op
                (fun o => { o with stage := 2 })
            else s
          s.endRegionOp o g (some vout) st v
    | _, _ => s)).settleTables)

/-- RELEASE (R180, R213). -/
def execRelease (op : Nat) (s : State) : Out :=
  .next ((s.opTurn op 0x42 (fun s o =>
    match s.regionOf o with
    | some g =>
      if o.stage = 0 then
        s.askHome o g 1 (fun s => s.homeTake g ⟨.op o.id, s.pb.moduleId, o.id, o.part, .release⟩) (fun tag => .release g.rid tag g.digest o.part)
      else match o.rsp with
        | none => s
        | some (st, _, v) =>
          let s := if st = 0 then
              (s.dropLocal o.part g.rid).modPart o.part (fun p => { p with pins := p.pins.filter (fun a => a.rid != g.rid) })
            else s
          s.endRegionOp o g none st v
    | none => s)).settleTables)

end Sys2Proof.Machine
end

