-- ==== Sys2Proof/Machine/Ras.lean ====
section
/-! DEFINITION. The scrubbers, the locate step, the migration of a retired rank, the end of recoveries, the hold limit and the erase sweep (R277, R282 to R287, R324). -/

namespace Sys2Proof.Machine

/-! ### Rank-block order (R258, R259, R282, R284) -/

/-- Block n of rank k in ascending order: each run of 64 blocks has one block on every rank (R258). -/
def rankBlk (k n : Nat) : Nat := 64 * n + (k ^^^ (n % 64) ^^^ (n / 64 % 64))

/-- User-visible, spare and metadata blocks of a rank (R259). -/
def State.userBlks (s : State) : Nat := s.deepUser / 4096 / 64
def State.spareBlks (s : State) : Nat := s.deepSpare / 4096 / 64
def State.metaBlks (s : State) : Nat := s.deepMeta / 4096 / 64

/-- Place of a line in a pair's scrub order: rank block, then rank of the pair, then line (DEDUCED, log 35). A migrated block lies in the spare part. -/
def State.scrubKey (s : State) (line : Nat) : Nat :=
  let blk := line / 64
  let n := if (tabFind s.ras.remap blk).isSome then s.userBlks + blk / 64 else blk / 64
  (8 * n + s.rankOf blk % 8) * 64 + line % 64

/-- Where the metadata parts begin in the scrub order, and where it ends. -/
def State.scrubMeta (s : State) : Nat := 512 * (2 * s.userBlks)
def State.scrubEnd (s : State) : Nat := 512 * (2 * s.userBlks + s.metaBlks)

/-- The least of a list by a key at or above a bound. -/
def leastFrom {α : Type} (key : α → Nat) (lo : Nat) (l : List α) : Option α :=
  l.foldl (fun (b : Option α) x =>
    if key x < lo then b
    else match b with
      | none => some x
      | some y => if key x < key y then some x else b) none

/-- The next line of a pair that its scrubber reads in the user-visible and spare parts; units whose valid bit is clear are skipped (R279, R282). -/
def State.nextScrub (s : State) (pair pos : Nat) : Option Nat :=
  leastFrom s.scrubKey pos ((s.mem.valid.filter (fun u => pairOfRank (s.rankOf (u / 16)) == pair)).flatMap (fun u => (List.range 4).map (4 * u + ·)))

/-- First line of a block that the scrubber reads. -/
def State.firstValid (s : State) (blk : Nat) : Option Nat :=
  ((s.mem.valid.filter (fun u => u / 16 == blk)).head?).map (4 * ·)

/-- A pass of a pair's scrubber ends: device hits count from 0 again (R277). -/
def State.scrubPass (s : State) (pair : Nat) : State :=
  let s := (List.range 8).foldl (fun s k => s.modRank (srOfPair pair k) (fun r => { r with hits := [] })) s
  { s with ras := { s.ras with scrubDeep := tabSet s.ras.scrubDeep pair 0, scrubPassesDeep := s.ras.scrubPassesDeep + 1 } }

/-- A metadata line in both its copies: its own rank's is line 0 of what the step reads, the other copy line 1 (R280). `place` is the line's place in
the scrub order. -/
def State.scrubMetaLine (s : State) (pair place : Nat) (errs : List SymErr) : State :=
  let k := srOfPair pair (place / 64 % 8)
  let read := fun (s : State) (r i : Nat) =>
    match decodeLine (s.rank r).marks errs i with
    | .good [] => (true, s)
    | .good devs =>
      let s := s.modRank r (fun x => { x with ce := satAdd 0xFFFFFFFF x.ce 1 })
      (true, ({ s with ras := { s.ras with ceDeep := s.ras.ceDeep + 1 } }).logCe r
        { event := 0x01, sev := 0, level := 0, device := devs.head?.getD 0xFF, loc := r })
    | .wrong => (true, s)
    | _ =>
      let s := { s with ras := { s.ras with ueDeep := s.ras.ueDeep + 1 } }
      (false, s.logRas { event := 0x03, sev := 1, level := 0, loc := r })
  let a := read s k 0
  let b := if a.1 then (true, a.2) else read a.2 (k ^^^ 32) 1
  if b.1 then b.2 else b.2.loseMeta (place * 8 + pair)

/-- What the scrubber does with a corrected line, and with a block whose poison marks a sealed form does not have: the one is rewritten through the merge buffer, the other
goes to recovery (R281, R282, R286). -/
def State.scrubFound (s : State) (line : Nat) (fixed bad : Bool) : State :=
  let s := if fixed then s.mergePush line .rewrite actMaint else s
  if bad then s.openRecovery (line / 64) false false else s

/-- The scrubber of a pair reads a line that it has been granted (R282). -/
def State.scrubLine (s : State) (pair line : Nat) (errs : List SymErr) : State :=
  let blk := line / 64
  let key := s.scrubKey line
  let s := { s with ras := { s.ras with scrubDeep := tabSet s.ras.scrubDeep pair (key + 1) } }
  let ce := (s.rank (s.rankOf blk)).ce
  let sealed := (s.ent? blk).any (fun e => !e.propagated)
  let bad := sealed && s.firstValid blk == some line && !(s.poisonOf blk).isEmpty
  match s.readDeep line 0 errs with
  | (r, s) =>
    let s := s.grantDeep { line := line, act := actMaint, rd := true } (line % 64) 1
    if r == .locating then { s with ras := { s.ras with scrubDeep := tabSet s.ras.scrubDeep pair key } }
    else s.scrubFound line (decide (ce < (s.rank (s.rankOf blk)).ce) || (r == .done && ce == 0xFFFFFFFF)) bad

/-- A step of a pair's scrubber (R282). -/
def State.scrubDeepStep (s : State) (pair : Nat) (errs : List SymErr) : State :=
  let pos := tabGet 0 s.ras.scrubDeep pair
  match s.nextScrub pair pos with
  | none =>
    let m := max pos s.scrubMeta
    if s.scrubEnd ≤ m then s.scrubPass pair
    else
      let s := (s.charge clsDeep pair actMaint 64).served clsDeep pair actMaint
      let s := { s with ras := { s.ras with scrubDeep := tabSet s.ras.scrubDeep pair (m + 1) } }
      s.scrubMetaLine pair m errs
  | some line =>
    if s.deepStopped (line / 64) actMaint 64 || !s.deepTurn { line := line, act := actMaint, rd := true } then s else s.scrubLine pair line errs

/-- The next line a near-tier scrubber reads: of the sectors of the stack's blocks, in ascending order. -/
def State.nextNear (s : State) (stack pos : Nat) : Option Nat :=
  leastFrom id pos ((s.mem.tags.filter (fun t => match s.placeOf t.blk with
    | some (r, st) => 2 * r + st % 2 == stack
    | none => false)).flatMap (fun t => (List.range (4 * t.sectors)).map (64 * t.blk + ·)))

/-- Where the tag rows follow in the order of a near-tier scrubber: one for each pseudo-channel. -/
def nearTagBase : Nat := 2 ^ 80

/-- A step of a near-tier scrubber (R282, R285). -/
def State.scrubNearStep (s : State) (stack : Nat) (errs : List SymErr) : State :=
  let pos := tabGet 0 s.ras.scrubNear stack
  let s := s.charge clsNear stack actMaint 64
  match if pos < nearTagBase then s.nextNear stack pos else none with
  | some line =>
    let s := { s with ras := { s.ras with scrubNear := tabSet s.ras.scrubNear stack (line + 1) } }
    (s.readNearErrs line errs).2
  | none =>
    let p := max pos nearTagBase
    let pc := p - nearTagBase
    if 32 ≤ pc then { s with ras := { s.ras with scrubNear := tabSet s.ras.scrubNear stack 0, scrubPassesNear := s.ras.scrubPassesNear + 1 } }
    else
      let s := { s with ras := { s.ras with scrubNear := tabSet s.ras.scrubNear stack (p + 1) } }
      if s.pcOk stack pc && (List.range 2).any (fun b => nearBurst errs 0 b == .uncorrectable) then
        let s := { s with ras := { s.ras with ueNear := s.ras.ueNear + 1 } }
        (s.logRas { event := 0x09, sev := 1, level := 0, loc := nearLoc stack pc }).retirePc stack pc []
      else s

/-- SCRUB_STEP: a scrubber reads its next line (R282). -/
def execScrubStep (c : Ctl) (errs : List SymErr) (s : State) : Out :=
  if !s.ctlOk c then .next s
  else match c with
    | .deep pair => .next (s.scrubDeepStep pair errs).settleTables
    | .near stack => .next (s.scrubNearStep stack errs).settleTables

/-! ### The locate step (R277) -/

/-- DEVICE_LOCATE: the locate step of a rank ends. The device found is marked second and the rank retires; with no single one the line is
uncorrectable (R283). The line is decoded again by whoever waits for it. -/
def execDeviceLocate (rank : Nat) (found : Option Nat) (s : State) : Out :=
  match (s.rank rank).locating with
  | none => .next s
  | some line =>
    let s := s.modRank rank (fun r => { r with locating := none })
    match found with
    | some d => if d < 10 ∧ (s.rank rank).mark1 ≠ d then .next (s.markDevice rank d) else .next (s.ueDeepLine line).settleTables
    | none => .next (s.ueDeepLine line).settleTables

/-! ### Migration (R284) -/

/-- The ranks in service that take migrated blocks, in ascending SR order. -/
def State.targets (s : State) : List Nat := (List.range 64).filter s.rankOk

/-- Starts retirements that wait, until one begins a migration (R284). -/
def State.nextRetire : Nat → State → State
  | 0, s => s
  | n + 1, s =>
    if s.ras.migrating.isSome then s
    else match s.ras.retireq with
      | [] => s
      | k :: rest =>
        let s := ({ s with ras := { s.ras with retireq := rest } } : State).startRetire k
        State.nextRetire n (if (s.rank k).st = 5 ∧ setHas s.ras.subFailed k then s.poisonRank k else s)

/-- The last block has moved: the rank is RETIRED, and the next retirement may begin. -/
def State.migrationDone (s : State) (k : Nat) : State :=
  let s := ({ s with ras := { s.ras with migrating := none } } : State).modRank k (fun r => { r with st := 4 })
  (s.logRas { event := 0x05, sev := 1, level := 0, loc := k }).nextRetire 64

/-- The next block of a migration: user-visible blocks of the rank, its metadata blocks, then what an earlier migration placed in its spare part. -/
inductive MigBlk where
  | user (blk : Nat)
  | metadata
  | done
deriving DecidableEq, Repr

def State.migNext (s : State) (k n : Nat) : MigBlk :=
  if n < s.userBlks then .user (rankBlk k n)
  else if n < s.userBlks + s.metaBlks then .metadata
  else match s.ras.remap.find? (fun e => e.2 == k) with
    | some e => .user e.1
    | none => .done

/-- MIGRATION_STEP: the next block of the retired rank moves, in one step at its home tag pipeline; a block under recovery waits (R284, R287). -/
def execMigrationStep (errs : List SymErr) (s : State) : Out :=
  match s.ras.migrating with
  | none => .next s
  | some (k, n) =>
    let ts := s.targets
    if !s.dataUp || ts.isEmpty then .next s
    else
      let to_ := ts[n % ts.length]?.getD 0
      let moved := fun (s : State) => ({ s with ras := { s.ras with migrating := some (k, n + 1), migrated := s.ras.migrated + 1 } } : State)
      match s.migNext k n with
      | .done => .next (s.migrationDone k)
      | .metadata => .next (moved ((s.charge clsDeep (pairOfRank k) actMaint 4096).charge clsDeep (pairOfRank to_) actMaint 4096))
      | .user blk =>
        let ask : DeepAsk := { line := 64 * blk, act := actMaint, rd := true }
        if s.deepStopped blk actMaint 4096 || !s.deepTurn ask || s.ras.recov.any (fun r => r.block == blk) then .next s
        else
          let e := s.readDeepLines ((List.range 64).map (64 * blk + ·)) errs
          if e.1 = .locating then .next e.2.settleTables
          else
            let s := (e.2.grantDeep ask 0 64).charge clsDeep (pairOfRank to_) actMaint 4096
            .next (moved { s with ras := { s.ras with remap := tabSet s.ras.remap blk to_ } }).settleTables

/-! ### The end of a recovery (R286, R287) -/

/-- This module holds the block in a stripe unit of a region with redundancy (R286). -/
def State.redundantBlk (s : State) (blk : Nat) : Bool :=
  s.pb.regions.any (fun g => g.mode != 0 && (s.memberIdx g).isSome &&
    decide (s.shareBase + g.stripeBase ≤ 4096 * blk) && decide (4096 * blk < s.shareBase + g.stripeBase + g.nslots * g.per))

/-- The stored form of a block that a source gives, when it passes every check of Table 5-8. -/
def State.sourceOk (s : State) (blk : Nat) (e : MapEnt) (bs : Bytes) : Option Bytes :=
  let bs := slice bs 0 (256 * e.sectors)
  match expandForm e (s.tableFor blk e) bs with
  | .ok _ => some bs
  | .error _ => none

/-- The sources of R286 in order, each with its SOURCE code; the first that passes. -/
def State.recoverySource (s : State) (r : Recov) (e : MapEnt) (deepErr replicaErr : Bool) (cavern : Option Bytes) : Option (Nat × Bytes) :=
  let stored := memBytes s.mem.deep (4096 * r.block) 4096
  let try1 := if r.above && !deepErr && (r.before.isEmpty || e.propagated) then s.sourceOk r.block e stored else none
  match try1 with
  | some b => some (1, b)
  | none =>
    match if e.replica && !replicaErr then s.sourceOk r.block e (slice stored (256 * (16 - e.sectors)) (256 * e.sectors)) else none with
    | some b => some (2, b)
    | none =>
      match cavern with
      | some c => if s.redundantBlk r.block then (s.sourceOk r.block e c).map (fun b => (3, b)) else none
      | none => none

/-- Serves everyone who waited for a block's recovery (R52, R287). -/
def State.wakeBlk (s : State) (blk : Nat) : State :=
  let s := (s.host.reqs.filter (fun r => r.line / 64 == blk && (match r.wait with | .recovery _ => true | _ => false))).foldl
    (fun s r => (s.setWait r.id .snoop).serveReq r.id []) s
  let s := s.wakeReads
  { s with disp := { s.disp with ops := s.disp.ops.map (fun o => match o.held with
      | some h => if h.1 = blk then { o with held := none } else o
      | none => o) } }

/-- RECOVERY_END: a recovery ends. `deepErr` and `replicaErr` say that the deep-tier form and the replica could not be read, `cavern` is the stored
form that the region's redundancy gives (DESIGN CHOICE, log 36). -/
def execRecoveryEnd (block : Nat) (deepErr replicaErr : Bool) (cavern : Option Bytes) (s : State) : Out :=
  match s.ras.recov.find? (fun r => r.block == block) with
  | none => .next s
  | some r =>
    let s := { s with ras := { s.ras with recov := s.ras.recov.filter (fun x => x.block != block) } }
    match s.ent? block with
    | none => .next ((s.wakeBlk block).pumpReqs).settleTables
    | some e =>
      let p := s.partOfAddr (4096 * block)
      match s.recoverySource r e deepErr replicaErr cavern with
      | some (src, b) =>
        let s := s.replaceBlock block { ent := e, bytes := b } e.replica true (if e.propagated then r.before else []) e.propagated
        let s := { s with ras := { s.ras with recovered := s.ras.recovered + 1 } }
        let s := s.logRas { event := 0x10, sev := 0, level := 0, source := src, part := p, loc := s.deepLoc block, addr := 4096 * block }
        .next ((s.wakeBlk block).pumpReqs).settleTables
      | none =>
        let s := { s with ras := { s.ras with unrecovered := s.ras.unrecovered + 1, gone := tabSet s.ras.gone block r.stale } }
        let s := s.logRas { event := 0x11, sev := 2, level := 0, part := p, loc := s.deepLoc block, addr := 4096 * block }
        .next ((s.wakeBlk block).pumpReqs).settleTables

/-- HMESH cycles of HOLD_LIMIT (R287, Table 13-6). -/
def State.holdCycles (s : State) : Nat := s.ras.holdLimit * 140000

def State.holdExpired (s : State) : State := { s with ras := { s.ras with holdExpired := s.ras.holdExpired + 1 } }

/-- HOLD_LIMIT_EXPIRY: a reader that has waited HOLD_LIMIT for a recovery receives poison (R52, R287): a host request or a READ held for a peer by its
number, a staged operation by 2^32 above its own (DESIGN CHOICE, log 125). -/
def execHoldLimitExpiry (id : Nat) (s : State) : Out :=
  let due := fun (since : Nat) => decide (since + s.holdCycles ≤ s.clk.hmesh)
  if 2 ^ 32 ≤ id then
    match s.op? (id - 2 ^ 32) with
    | some o => match o.held with
      | some h => if due h.2 then
          .next (s.holdExpired.modOp o.id (fun o => { o with held := none, given := setAdd o.given h.1 }))
        else .next s
      | none => .next s
    | none => .next s
  else match s.host.reqs.find? (fun r => r.id == id) with
    | some r => match r.wait with
      | .recovery t => if due t then
          .next ((match r.op with
            | .spec => s.dropReq id
            | _ => s.holdExpired.answerRd r (deadLine r.line, true)).pumpReqs)
        else .next s
      | _ => .next s
    | none => match s.cav.heldReads.find? (fun h => h.id == id) with
      | some h => if due h.since && (shareBlks h.ma h.lines).any (fun b => s.ras.recov.any (fun r => r.block == b)) then
          let s := ({ s with cav := { s.cav with heldReads := s.cav.heldReads.filter (fun (x : HeldRead) => x.id != id) } } : State).holdExpired
          -- the lines of blocks under recovery carry their marks
          match ({ s with ras := { s.ras with recov := [] } } : State).holderRead h.ma h.lines with
          | .ok v => .next (s.giveRead h.peer h.rtag h.lines h.coded (v.1, v.2, ({ sectors := 16 } : MapEnt).word)).settleTables
          | .error _ => .next s
        else .next s
      | none => .next s

/-! ### The erase sweep (R324) -/

/-- ERASE_SWEEP_STEP: the sweep of a pair's first erased range passes the next valid-bit line that is not on the list; at the end of the range the
record and the list are removed. What an erase clears reads as zero from the erase on (DESIGN CHOICE, log 27). -/
def execEraseSweepStep (pair : Nat) (s : State) : Out :=
  match s.mem.erased.find? (fun e => e.pair == pair) with
  | none => .next s
  | some e =>
    let last := (e.base + e.size - 1) / 131072
    let next := ((List.range (e.cleared.length + 1)).map (e.next + ·)).find? (fun l => !setHas e.cleared l)
    let past := (next.getD e.next) + 1
    let put := fun (f : Erased → Option Erased) => s.mem.erased.filterMap (fun x => if x == e then f x else some x)
    let s := s.charge clsDeep pair actMaint 128
    if last < past ∨ e.size = 0 then .next { s with mem := { s.mem with erased := put (fun _ => none) } }
    else .next { s with mem := { s.mem with erased := put (fun x => some { x with next := past }) } }

end Sys2Proof.Machine
end

