-- ==== Sys2Proof/Machine/WqClose.lean ====
section
/-! DEFINITION. The close of a stalled packet of a wings queue, and how the reader of each class ends it (R360 to R362, Table 18-2). -/

namespace Sys2Proof.Machine

/-- The newest data response of a port's LD with a tag is sent as all ones with poison. -/
def deadSent (port ld tag : Nat) : List Output → List Output
  | [] => []
  | .memData p l t d po mf dl :: r =>
    if p = port ∧ l = ld ∧ t = tag then .memData p l t onesLine true mf dl :: r else .memData p l t d po mf dl :: deadSent port ld tag r
  | o :: r => o :: deadSent port ld tag r

/-- A host load whose bytes are missing receives all ones with poison: the response under way, or the one it still waits for. -/
def State.deadLoad (s : State) (port ld tag : Nat) : State :=
  match s.host.reqs.find? (fun r => r.port == port && r.ld == ld && r.tag == tag && r.op == .rd) with
  | some r => s.answerRd r (onesLine, true)
  | none => { s with outs := deadSent port ld tag s.outs }

/-- The newest sending of a SEQ of a session leaves the outputs. -/
def unsent (port session seq : Nat) (os : List Output) : List Output :=
  os.eraseP (fun o => match o with
    | .frame p _ x (some q) _ _ _ _ _ _ _ => p == port && x == session && q == seq
    | _ => false)

/-- What follows for the request that a message, not sent, belongs to: its access ends TRUNCATED, and so does a REDUCE (Table 18-2). -/
def State.unsentEnd (s : State) (peer : Nat) (m : ColdonMsg) : State :=
  match m with
  | .reduceJoin g q .. | .reduceData g _ _ q .. | .reduceSum g _ _ q .. => s.endRedn g q stTruncated dtNone
  | m => match s.cav.remote.find? (fun r => r.peer == peer && r.msg == m) with
    | some r => s.remoteDone peer r.rtag (fun a => { a with status := 101 })
    | none => s

/-- The last sequenced message of a session is not sent, and no SEQ is consumed (Table 18-2). -/
def State.closeMessage (s : State) (q peer : Nat) : State :=
  match s.sess? peer with
  | none => s
  | some x =>
    match x.outst.getLast? with
    | none => s
    | some o =>
      if x.port + 16 ≠ q ∨ o.seq + 1 ≠ x.sndNxt then s
      else
        let s := s.modSess peer (fun y => { y with sndNxt := o.seq, sinceCut := y.sinceCut.map (· - 1), outst := y.outst.dropLast })
        let held := unsent x.port x.psid (o.seq % 2 ^ 32) (s.cport x.port).waiting
        let s := if held.length < (s.cport x.port).waiting.length then s.modCport x.port (fun c => { c with waiting := held })
          else { s.modCport x.port (fun c => { c with tx := c.tx - 1 }) with outs := unsent x.port x.psid (o.seq % 2 ^ 32) s.outs }
        let s := s.unsentEnd peer o.msg
        State.pumpTx 4096 s peer

/-- A read that is closed a second time: a host load receives all ones with poison, a fill creates no block, an operation completes TRUNCATED. -/
def State.closeRead (s : State) (u : ClosedUse) : State :=
  match u with
  | .hostLine port ld tag => s.deadLoad port ld tag
  | .operation id => s.modOp id (fun o => { o with truncated := true })
  | .fill p i k => match (s.part p).cue.cues[i]? with
    | none => s
    | some c =>
      if !c.out.contains k then s
      else match s.cueAddr p c k with
        | some (r, idx, off) => (s.skipBlk p).placeBlk p (r.addr idx off / 4096)
        | none => s
  | _ => s

/-- How the reader of a queue's class ends a closed packet (Table 18-2). `again`: the packet is that of a read the master reissued. -/
def State.endClosed (s : State) (q : Nat) (u : ClosedUse) (again : Bool) : State :=
  if q < 8 then
    match u with
    | .requests ids =>
      let s : State := { s with host := { s.host with ingress := s.host.ingress.filter (fun (x : Ingress) => !(x.port == q && ids.contains x.id)) } }
      (ids.foldl (fun s id => match s.host.reqs.find? (fun r => r.id == id) with
        | some r => if r.port = q then s.dropReq id else s
        | none => s) s).pumpReqs
    | _ => s
  else if q < 16 then
    match u with
    | .lines l => l.foldl (fun s x => s.deadLoad (q - 8) x.1 x.2) s
    | _ => s
  else if q < 20 then
    match u with
    | .message peer => s.closeMessage q peer
    | _ => s
  else if q < 24 then s.modCport (q - 20) (fun c => { c with macErr := c.macErr + 1 })
  else if again && (s.wqueue q).reissued.contains u then (s.modWq q (fun w => { w with reissued := w.reissued.erase u })).closeRead u
  else s.modWq q (fun w => { w with reissued := w.reissued ++ [u] })

/-- WQ_STALL_CLOSE: the stall count has reached STALL_LIMIT: the queue closes the packet with a TRUNC word, its number starts to the write side, and the
reader ends the packet (R360 to R362). `use` is what the packet carries (DEDUCED, log 93) (DEDUCED, log 112). -/
def execWqStallClose (q : Nat) (use : ClosedUse) (again : Bool) (s : State) : Out :=
  let w := s.wqueue q
  if 120 ≤ q ∨ !s.dataUp ∨ !s.qStalled q ∨ (s.qReadClock q).1 < w.stallSince + s.stallCycles q then .next s
  else
    let s := s.modWq q (fun w => { w with
      trunc := w.trunc + 1, words := w.words ++ [{ sop := false, eop := true, trunc := true }], closed := w.closed ++ [w.wrPkt], asm := 0, pktWords := 0 })
    let s := s.qCross q w.level
    let s := s.logRated (wqTruncKey q) 1 (fun n s => s.logEv .wqTruncated 0xFF q n (s.wqueue q).level)
    .next ((s.endClosed q use again).emit (.packetClosed q))

end Sys2Proof.Machine
end

