-- ==== Sys2Proof/Machine/Dispatch.lean ====
section
/-! DEFINITION. One arm per command: a direct call of its meaning. -/

namespace Sys2Proof.Machine

def exec (i : Instr) (s : State) : Host.Outcome State Fault Refusal :=
  match i with
  | .registerWrite via addr size value => Sys2Proof.Machine.execRegisterWrite via addr size value s
  | .rcRead via addr size counted => Sys2Proof.Machine.execRcRead via addr size counted s
  | .halfReadLatch via addr => Sys2Proof.Machine.execHalfReadLatch via addr s
  | .unitFailure u => Sys2Proof.Machine.execUnitFailure u s
  | .d2dReplay l ok => Sys2Proof.Machine.execD2dReplay l ok s
  | .d2dLinkDown l lostLock => Sys2Proof.Machine.execD2dLinkDown l lostLock s
  | .hopReplay u ok => Sys2Proof.Machine.execHopReplay u ok s
  | .hopFailed u => Sys2Proof.Machine.execHopFailed u s
  | .windowBoundary cls point waiting panic => Sys2Proof.Machine.execWindowBoundary cls point waiting panic s
  | .admissionWindow => Sys2Proof.Machine.execAdmissionWindow s
  | .deepReadReturn id errs => Sys2Proof.Machine.execDeepReadReturn id errs s
  | .mergeBufferWrite pair errs => Sys2Proof.Machine.execMergeBufferWrite pair errs s
  | .egressExpansionDone port block => Sys2Proof.Machine.execEgressExpansionDone port block s
  | .linkTraining port rate x8 flitOk => Sys2Proof.Machine.execLinkTraining port rate x8 flitOk s
  | .linkUp port => Sys2Proof.Machine.execLinkUp port s
  | .linkRetrain port rate x8 => Sys2Proof.Machine.execLinkRetrain port rate x8 s
  | .linkDown port => Sys2Proof.Machine.execLinkDown port s
  | .perstNAssert port => Sys2Proof.Machine.execPerstNAssert port s
  | .hotReset port => Sys2Proof.Machine.execHotReset port s
  | .functionLevelReset port ld => Sys2Proof.Machine.execFunctionLevelReset port ld s
  | .msixUnmask port ld act => Sys2Proof.Machine.execMsixUnmask port ld act s
  | .hdmDecoderCommit port ld idx base size skip ways gran bi => Sys2Proof.Machine.execHdmDecoderCommit port ld idx base size skip ways gran bi s
  | .memrd port ld tag hpa mv macOk errs metaLost q => Sys2Proof.Machine.execMemrd port ld tag hpa mv macOk errs metaLost q s
  | .memspecrd flit ld hpa => Sys2Proof.Machine.execMemspecrd flit ld hpa s
  | .meminv flit ld tag hpa mv => Sys2Proof.Machine.execMeminv flit ld tag hpa mv s
  | .memclnevct flit ld tag hpa => Sys2Proof.Machine.execMemclnevct flit ld tag hpa s
  | .memwr port ld tag hpa mv macOk data poison => Sys2Proof.Machine.execMemwr port ld tag hpa mv macOk data poison s
  | .memwrptl flit ld tag hpa mv data mask poison => Sys2Proof.Machine.execMemwrptl flit ld tag hpa mv data mask poison s
  | .birsp flit ld line st wb => Sys2Proof.Machine.execBirsp flit ld line st wb s
  | .biconflict flit ld line => Sys2Proof.Machine.execBiconflict flit ld line s
  | .biTimeout port ld line => Sys2Proof.Machine.execBiTimeout port ld line s
  | .ideKmKeyProg port st session keySet => Sys2Proof.Machine.execIdeKmKeyProg port st session keySet s
  | .ideKeySetChange port st => Sys2Proof.Machine.execIdeKeySetChange port st s
  | .doeDiscovery port ld index => Sys2Proof.Machine.execDoeDiscovery port ld index s
  | .cdatTableAccess port ld entry => Sys2Proof.Machine.execCdatTableAccess port ld entry s
  | .doeUnknownObject port ld vendor typ => Sys2Proof.Machine.execDoeUnknownObject port ld vendor typ s
  | .getVersion ep => Sys2Proof.Machine.execGetVersion ep s
  | .getCapabilities ep => Sys2Proof.Machine.execGetCapabilities ep s
  | .negotiateAlgorithms ep asym hash dhe aead => Sys2Proof.Machine.execNegotiateAlgorithms ep asym hash dhe aead s
  | .getCertificate ep slot off len => Sys2Proof.Machine.execGetCertificate ep slot off len s
  | .challenge ep slot nonce => Sys2Proof.Machine.execChallenge ep slot nonce s
  | .getMeasurements ep index signed nonce => Sys2Proof.Machine.execGetMeasurements ep index signed nonce s
  | .keyExchange ep reqSession exch => Sys2Proof.Machine.execKeyExchange ep reqSession exch s
  | .spdmFinish ep session macOk => Sys2Proof.Machine.execSpdmFinish ep session macOk s
  | .heartbeat ep session => Sys2Proof.Machine.execHeartbeat ep session s
  | .keyUpdate ep session => Sys2Proof.Machine.execKeyUpdate ep session s
  | .endSession ep session => Sys2Proof.Machine.execEndSession ep session s
  | .getLdInfo p => Sys2Proof.Machine.execGetLdInfo p s
  | .getLdAllocations p => Sys2Proof.Machine.execGetLdAllocations p s
  | .setLdAllocations p alloc => Sys2Proof.Machine.execSetLdAllocations p alloc s
  | .getQosControl p => Sys2Proof.Machine.execGetQosControl p s
  | .setQosControl p => Sys2Proof.Machine.execSetQosControl p s
  | .getQosStatus p => Sys2Proof.Machine.execGetQosStatus p s
  | .getQosAllocatedBw p => Sys2Proof.Machine.execGetQosAllocatedBw p s
  | .setQosAllocatedBw p => Sys2Proof.Machine.execSetQosAllocatedBw p s
  | .getQosBwLimit p => Sys2Proof.Machine.execGetQosBwLimit p s
  | .setQosBwLimit p => Sys2Proof.Machine.execSetQosBwLimit p s
  | .identify port ld => Sys2Proof.Machine.execIdentify port ld s
  | .backgroundOperationStatus port ld => Sys2Proof.Machine.execBackgroundOperationStatus port ld s
  | .getResponseMessageLimit port ld => Sys2Proof.Machine.execGetResponseMessageLimit port ld s
  | .getEventRecords port ld log max => Sys2Proof.Machine.execGetEventRecords port ld log max s
  | .clearEventRecords port ld log handles => Sys2Proof.Machine.execClearEventRecords port ld log handles s
  | .getEventInterruptPolicy port ld => Sys2Proof.Machine.execGetEventInterruptPolicy port ld s
  | .setEventInterruptPolicy port ld signal => Sys2Proof.Machine.execSetEventInterruptPolicy port ld signal s
  | .getFwInfo port ld => Sys2Proof.Machine.execGetFwInfo port ld s
  | .transferFw port ld => Sys2Proof.Machine.execTransferFw port ld s
  | .activateFw port ld => Sys2Proof.Machine.execActivateFw port ld s
  | .getTimestamp port ld => Sys2Proof.Machine.execGetTimestamp port ld s
  | .setTimestamp port ld => Sys2Proof.Machine.execSetTimestamp port ld s
  | .getSupportedLogs port ld => Sys2Proof.Machine.execGetSupportedLogs port ld s
  | .getLog port ld log off len => Sys2Proof.Machine.execGetLog port ld log off len s
  | .getLogCapabilities port ld log => Sys2Proof.Machine.execGetLogCapabilities port ld log s
  | .clearLog port ld log => Sys2Proof.Machine.execClearLog port ld log s
  | .identifyMemoryDevice port ld => Sys2Proof.Machine.execIdentifyMemoryDevice port ld s
  | .getPartitionInfo port ld => Sys2Proof.Machine.execGetPartitionInfo port ld s
  | .setPartitionInfo port ld => Sys2Proof.Machine.execSetPartitionInfo port ld s
  | .getLsa port ld => Sys2Proof.Machine.execGetLsa port ld s
  | .setLsa port ld => Sys2Proof.Machine.execSetLsa port ld s
  | .getHealthInfo port ld => Sys2Proof.Machine.execGetHealthInfo port ld s
  | .getAlertConfiguration port ld => Sys2Proof.Machine.execGetAlertConfiguration port ld s
  | .setAlertConfiguration port ld temp ce => Sys2Proof.Machine.execSetAlertConfiguration port ld temp ce s
  | .getShutdownState port ld => Sys2Proof.Machine.execGetShutdownState port ld s
  | .setShutdownState port ld => Sys2Proof.Machine.execSetShutdownState port ld s
  | .getPoisonList port ld dpa len => Sys2Proof.Machine.execGetPoisonList port ld dpa len s
  | .injectPoison port ld dpa => Sys2Proof.Machine.execInjectPoison port ld dpa s
  | .clearPoison port ld dpa data => Sys2Proof.Machine.execClearPoison port ld dpa data s
  | .getScanMediaCapabilities port ld dpa len => Sys2Proof.Machine.execGetScanMediaCapabilities port ld dpa len s
  | .scanMedia port ld dpa len => Sys2Proof.Machine.execScanMedia port ld dpa len s
  | .getScanMediaResults port ld => Sys2Proof.Machine.execGetScanMediaResults port ld s
  | .sanitize port ld => Sys2Proof.Machine.execSanitize port ld s
  | .secureErase port ld => Sys2Proof.Machine.execSecureErase port ld s
  | .getSecurityState port ld => Sys2Proof.Machine.execGetSecurityState port ld s
  | .setPassphrase port ld => Sys2Proof.Machine.execSetPassphrase port ld s
  | .disablePassphrase port ld => Sys2Proof.Machine.execDisablePassphrase port ld s
  | .unlock port ld => Sys2Proof.Machine.execUnlock port ld s
  | .freezeSecurityState port ld => Sys2Proof.Machine.execFreezeSecurityState port ld s
  | .passphraseSecureErase port ld => Sys2Proof.Machine.execPassphraseSecureErase port ld s
  | .unsupportedOpcode port ld opcode => Sys2Proof.Machine.execUnsupportedOpcode port ld opcode s
  | .backgroundCommandDone part errs => Sys2Proof.Machine.execBackgroundCommandDone part errs s
  | .partReset port ld value => Sys2Proof.Machine.execPartReset port ld value s
  | .partitionResetComplete part => Sys2Proof.Machine.execPartitionResetComplete part s
  | .sqTailWrite port ld ring value => Sys2Proof.Machine.execSqTailWrite port ld ring value s
  | .cqHeadWrite port ld ring value => Sys2Proof.Machine.execCqHeadWrite port ld ring value s
  | .ringReset port ld ring value => Sys2Proof.Machine.execRingReset port ld ring value s
  | .ringResetEnd ring => Sys2Proof.Machine.execRingResetEnd ring s
  | .ringIntMaskWrite port ld ring value => Sys2Proof.Machine.execRingIntMaskWrite port ld ring value s
  | .descriptorFetch => Sys2Proof.Machine.execDescriptorFetch s
  | .operationFinish ops => Sys2Proof.Machine.execOperationFinish ops s
  | .coalTimeExpiry port ld vector => Sys2Proof.Machine.execCoalTimeExpiry port ld vector s
  | .nop op => Sys2Proof.Machine.execNop op s
  | .fence op => Sys2Proof.Machine.execFence op s
  | .copy op => Sys2Proof.Machine.execCopy op s
  | .fill op => Sys2Proof.Machine.execFill op s
  | .seal op => Sys2Proof.Machine.execSeal op s
  | .sealAdmit op => Sys2Proof.Machine.execSealAdmit op s
  | .sealBlockReplace op => Sys2Proof.Machine.execSealBlockReplace op s
  | .unseal op => Sys2Proof.Machine.execUnseal op s
  | .place op => Sys2Proof.Machine.execPlace op s
  | .prefetch op => Sys2Proof.Machine.execPrefetch op s
  | .gemm op => Sys2Proof.Machine.execGemm op s
  | .recipe op => Sys2Proof.Machine.execRecipe op s
  | .optim op => Sys2Proof.Machine.execOptim op s
  | .reduce op => Sys2Proof.Machine.execReduce op s
  | .joinTimeout op => Sys2Proof.Machine.execJoinTimeout op s
  | .gather op => Sys2Proof.Machine.execGather op s
  | .scatterAdd op => Sys2Proof.Machine.execScatterAdd op s
  | .simsearch op => Sys2Proof.Machine.execSimsearch op s
  | .publish op => Sys2Proof.Machine.execPublish op s
  | .acquire op => Sys2Proof.Machine.execAcquire op s
  | .release op => Sys2Proof.Machine.execRelease op s
  | .counters op => Sys2Proof.Machine.execCounters op s
  | .tierHintWrite port ld n value => Sys2Proof.Machine.execTierHintWrite port ld n value s
  | .evict port ld n value => Sys2Proof.Machine.execEvict port ld n value s
  | .evictDone part n => Sys2Proof.Machine.execEvictDone part n s
  | .cueCurtain port ld value => Sys2Proof.Machine.execCueCurtain port ld value s
  | .cueSelect port ld acc => Sys2Proof.Machine.execCueSelect port ld acc s
  | .cueWeight port ld acc => Sys2Proof.Machine.execCueWeight port ld acc s
  | .cueBlockIssue heldBack => Sys2Proof.Machine.execCueBlockIssue heldBack s
  | .cueBlockFill part cue block errs => Sys2Proof.Machine.execCueBlockFill part cue block errs s
  | .rebuildStep rid => Sys2Proof.Machine.execRebuildStep rid s
  | .slotWaitExpiry rid module rtag => Sys2Proof.Machine.execSlotWaitExpiry rid module rtag s
  | .hello f b => Sys2Proof.Machine.execHello f b s
  | .helloRsp f b => Sys2Proof.Machine.execHelloRsp f b s
  | .coldonFinish f => Sys2Proof.Machine.execColdonFinish f s
  | .ack f blocks => Sys2Proof.Machine.execAck f blocks s
  | .ping f cookie => Sys2Proof.Machine.execPing f cookie s
  | .pong f cookie => Sys2Proof.Machine.execPong f cookie s
  | .close f reason => Sys2Proof.Machine.execClose f reason s
  | .nak f session moduleId reason => Sys2Proof.Machine.execNak f session moduleId reason s
  | .read f caddr rid rtag digest lines pre coded q => Sys2Proof.Machine.execRead f caddr rid rtag digest lines pre coded q s
  | .readRsp f rtag status poison mapent data => Sys2Proof.Machine.execReadRsp f rtag status poison mapent data s
  | .write f caddr rid rtag digest lines poison data => Sys2Proof.Machine.execWrite f caddr rid rtag digest lines poison data s
  | .add f caddr rid rtag digest lines afmtBf16 tfmtBf16 poison data => Sys2Proof.Machine.execAdd f caddr rid rtag digest lines afmtBf16 tfmtBf16 poison data s
  | .delta f caddr rid rtag digest lines poison data => Sys2Proof.Machine.execDelta f caddr rid rtag digest lines poison data s
  | .writeAck f rtag status => Sys2Proof.Machine.execWriteAck f rtag status s
  | .reserve f rid rtag digest base part => Sys2Proof.Machine.execReserve f rid rtag digest base part s
  | .commit f rid rtag digest base part slot => Sys2Proof.Machine.execCommit f rid rtag digest base part slot s
  | .abandon f rid rtag digest part slot => Sys2Proof.Machine.execAbandon f rid rtag digest part slot s
  | .coldonAcquire f rid rtag digest version part => Sys2Proof.Machine.execColdonAcquire f rid rtag digest version part s
  | .coldonRelease f rid rtag digest part => Sys2Proof.Machine.execColdonRelease f rid rtag digest part s
  | .regionRsp f rtag status slot homeEpoch version => Sys2Proof.Machine.execRegionRsp f rtag status slot homeEpoch version s
  | .coldonFill f rid rtag digest baseSlot newSlot offset length => Sys2Proof.Machine.execColdonFill f rid rtag digest baseSlot newSlot offset length s
  | .mirror f rid rtag homeEpoch change slot module part state version => Sys2Proof.Machine.execMirror f rid rtag homeEpoch change slot module part state version s
  | .promote f rid homeEpoch newHome => Sys2Proof.Machine.execPromote f rid homeEpoch newHome s
  | .tableFetch f rid rtag digest slot gen => Sys2Proof.Machine.execTableFetch f rid rtag digest slot gen s
  | .tableRsp f rtag status slot gen fmt lens => Sys2Proof.Machine.execTableRsp f rtag status slot gen fmt lens s
  | .tableDrop f slot gen => Sys2Proof.Machine.execTableDrop f slot gen s
  | .tableRelease f slot gen => Sys2Proof.Machine.execTableRelease f slot gen s
  | .reduceJoin f group rseq rank opFlags count => Sys2Proof.Machine.execReduceJoin f group rseq rank opFlags count s
  | .reduceData f group rank fmt rseq elem poison data => Sys2Proof.Machine.execReduceData f group rank fmt rseq elem poison data s
  | .reduceSum f group rank fmt rseq elem poison data => Sys2Proof.Machine.execReduceSum f group rank fmt rseq elem poison data s
  | .reduceAbort f group reason rseq => Sys2Proof.Machine.execReduceAbort f group reason rseq s
  | .helloRetryExpiry peer => Sys2Proof.Machine.execHelloRetryExpiry peer s
  | .rtoExpiry peer seq => Sys2Proof.Machine.execRtoExpiry peer seq s
  | .ackDelayExpiry peer => Sys2Proof.Machine.execAckDelayExpiry peer s
  | .idlePingExpiry peer => Sys2Proof.Machine.execIdlePingExpiry peer s
  | .livenessLimitExpiry peer => Sys2Proof.Machine.execLivenessLimitExpiry peer s
  | .neighborSolicitation port target => Sys2Proof.Machine.execNeighborSolicitation port target s
  | .echoRequest port dest data => Sys2Proof.Machine.execEchoRequest port dest data s
  | .pfcFrame port pcp xoff => Sys2Proof.Machine.execPfcFrame port pcp xoff s
  | .pauseFrame port => Sys2Proof.Machine.execPauseFrame port s
  | .routerAdvertisement port => Sys2Proof.Machine.execRouterAdvertisement port s
  | .coldonPortDown port => Sys2Proof.Machine.execColdonPortDown port s
  | .coldonPortUp port => Sys2Proof.Machine.execColdonPortUp port s
  | .throttleEnd pair activity => Sys2Proof.Machine.execThrottleEnd pair activity s
  | .refreshDue c k rtWaiting => Sys2Proof.Machine.execRefreshDue c k rtWaiting s
  | .refreshIssue c k rtWaiting => Sys2Proof.Machine.execRefreshIssue c k rtWaiting s
  | .refreshComplete c k => Sys2Proof.Machine.execRefreshComplete c k s
  | .mr4Read c k reading => Sys2Proof.Machine.execMr4Read c k reading s
  | .retrainRound c k periodic temp => Sys2Proof.Machine.execRetrainRound c k periodic temp s
  | .retrainStep c k panicWaiting ok okAgain => Sys2Proof.Machine.execRetrainStep c k panicWaiting ok okAgain s
  | .retrainDeferExpiry c k => Sys2Proof.Machine.execRetrainDeferExpiry c k s
  | .trackerClear c => Sys2Proof.Machine.execTrackerClear c s
  | .targetedRefresh c bank row => Sys2Proof.Machine.execTargetedRefresh c bank row s
  | .freqChangeStart pair panicWaiting => Sys2Proof.Machine.execFreqChangeStart pair panicWaiting s
  | .freqChangeDone pair hot pauseNs => Sys2Proof.Machine.execFreqChangeDone pair hot pauseNs s
  | .dctlXlateMa rq pair acc => Sys2Proof.Machine.execDctlXlateMa rq pair acc s
  | .scrubStep c errs => Sys2Proof.Machine.execScrubStep c errs s
  | .deviceLocate rank found => Sys2Proof.Machine.execDeviceLocate rank found s
  | .migrationStep errs => Sys2Proof.Machine.execMigrationStep errs s
  | .recoveryEnd block deepErr replicaErr cavern => Sys2Proof.Machine.execRecoveryEnd block deepErr replicaErr cavern s
  | .holdLimitExpiry id => Sys2Proof.Machine.execHoldLimitExpiry id s
  | .eraseSweepStep pair => Sys2Proof.Machine.execEraseSweepStep pair s
  | .powerTick t => Sys2Proof.Machine.execPowerTick t s
  | .demandFall c => Sys2Proof.Machine.execDemandFall c s
  | .calibrationInterval => Sys2Proof.Machine.execCalibrationInterval s
  | .calNvmWrite => Sys2Proof.Machine.execCalNvmWrite s
  | .capDeferred op => Sys2Proof.Machine.execCapDeferred op s
  | .thermalTrip sensor reading => Sys2Proof.Machine.execThermalTrip sensor reading s
  | .supplyTrip => Sys2Proof.Machine.execSupplyTrip s
  | .pwrCapModule rq value => Sys2Proof.Machine.execPwrCapModule rq value s
  | .pwrCapDie rq acc => Sys2Proof.Machine.execPwrCapDie rq acc s
  | .ownerClaim m key sig => Sys2Proof.Machine.execOwnerClaim m key sig s
  | .ownerTransfer m newHash serial nonce sig => Sys2Proof.Machine.execOwnerTransfer m newHash serial nonce sig s
  | .cosignSet m sig => Sys2Proof.Machine.execCosignSet m sig s
  | .debugChallenge m => Sys2Proof.Machine.execDebugChallenge m s
  | .debugUnlock m token => Sys2Proof.Machine.execDebugUnlock m token s
  | .debugLock m => Sys2Proof.Machine.execDebugLock m s
  | .powerUp modAddr => Sys2Proof.Machine.execPowerUp modAddr s
  | .trainingComplete failed => Sys2Proof.Machine.execTrainingComplete failed s
  | .startTimeout => Sys2Proof.Machine.execStartTimeout s
  | .reload m slot => Sys2Proof.Machine.execReload m slot s
  | .reloadComplete => Sys2Proof.Machine.execReloadComplete s
  | .resetPartition m part => Sys2Proof.Machine.execResetPartition m part s
  | .moduleReset m => Sys2Proof.Machine.execModuleReset m s
  | .moduleRestart m => Sys2Proof.Machine.execModuleRestart m s
  | .epoch m => Sys2Proof.Machine.execEpoch m s
  | .cavernPromote m rid => Sys2Proof.Machine.execCavernPromote m rid s
  | .timeSet m t => Sys2Proof.Machine.execTimeSet m t s
  | .logRead m bookmark count => Sys2Proof.Machine.execLogRead m bookmark count s
  | .bookmarkSet m bookmark mode seq => Sys2Proof.Machine.execBookmarkSet m bookmark mode seq s
  | .logBmkWrite rq bookmark value => Sys2Proof.Machine.execLogBmkWrite rq bookmark value s
  | .fwCommit m => Sys2Proof.Machine.execFwCommit m s
  | .regRead m addr width => Sys2Proof.Machine.execRegRead m addr width s
  | .regWrite m addr width value => Sys2Proof.Machine.execRegWrite m addr width value s
  | .unknownCommand m code => Sys2Proof.Machine.execUnknownCommand m code s
  | .mgmtWatchdog => Sys2Proof.Machine.execMgmtWatchdog s
  | .callboardMirrorWrite dev => Sys2Proof.Machine.execCallboardMirrorWrite dev s
  | .setEventReceiver eid => Sys2Proof.Machine.execSetEventReceiver eid s
  | .verifyComplete component slot => Sys2Proof.Machine.execVerifyComplete component slot s
  | .activateFirmware => Sys2Proof.Machine.execActivateFirmware s
  | .trialCommitTimeout => Sys2Proof.Machine.execTrialCommitTimeout s
  | .wqStallClose q use again => Sys2Proof.Machine.execWqStallClose q use again s
  | .wqPacketNumberArrival q => Sys2Proof.Machine.execWqPacketNumberArrival q s
  | .crossedClear rq q crossingNow => Sys2Proof.Machine.execCrossedClear rq q crossingNow s
  | .markWrite rq q value => Sys2Proof.Machine.execMarkWrite rq q value s
  | .tstHoldEnd q => Sys2Proof.Machine.execTstHoldEnd q s
  | .modResetNAssert widthNs => Sys2Proof.Machine.execModResetNAssert widthNs s
  | .modResetNRelease => Sys2Proof.Machine.execModResetNRelease s
  | .standbyLoss => Sys2Proof.Machine.execStandbyLoss s
  | .prsntNRise port => Sys2Proof.Machine.execPrsntNRise port s
  | .prsntNFall port => Sys2Proof.Machine.execPrsntNFall port s
  | .perstNRelease port => Sys2Proof.Machine.execPerstNRelease port s
  | .componentTransfer component slot off data => Sys2Proof.Machine.execComponentTransfer component slot off data s

end Sys2Proof.Machine
end

