-- ==== Sys2Proof/Machine/Pins.lean ====
section
/-! DEFINITION. The pins that the module drives, and what the test access port carries out (R372, R374, R376, Tables 19-3, 19-4). -/

namespace Sys2Proof.Machine

/-- HPp_LED_N is low while the port's link is in L0 (Table 19-3). -/
def State.ledN (s : State) (p : Nat) : Bool := (s.port p).link != .l0

/-- STBY_PWRGD: high while the standby rail is in regulation (Table 19-4). -/
def State.stbyPwrgd (s : State) : Bool := s.mgmt.standby

/-- MOD_PWRGD: high while the data-plane rails are up (Table 19-4). -/
def State.modPwrgd (s : State) : Bool := s.mgmt.dataRails

/-- MOD_PRSNT_N is tied to ground (Table 19-4). -/
def modPrsntN : Bool := false

/-- The static I3C address: 0x30 + MOD_ADDR (Table 19-4). -/
def State.i3cAddr (s : State) : Nat := 0x30 + s.mgmt.modAddr

/-- MGT_GPIO0 to MGT_GPIO3, as the last tick left them (R376). -/
def State.gpioPin (s : State) (k : Nat) : Bool := bit s.mgmt.gpio k

/-- MGT_UART_TX is driven high, and MGT_UART_RX ignored, until a debug unlock opens the UART (R376). -/
def State.uartOpen (s : State) : Bool := s.sec.dbgUart

/-- What the test access port does with an instruction (R376). -/
inductive TapDoes where
  | bypass
  | idcode
  | debug
deriving DecidableEq, Repr

/-- IDCODE (R376). -/
def tapIdcode : Nat := 0x1D010F3D

/-- Until JTAG_MGMT or JTAG_DATA is open the TAP carries out only BYPASS and IDCODE, and any other instruction selects BYPASS (R376). -/
def State.tap (s : State) (asked : TapDoes) : TapDoes :=
  if asked = .debug ∧ !(s.sec.dbgMgmt || s.sec.dbgData) then .bypass else asked

end Sys2Proof.Machine
end

