-- ==== Sys2Proof/Safety.lean ====
section
/-! DEFINITION. The terms in which claims speak of the machine: a command that completes, the pieces of State that it leaves alone, and the invariant that every step keeps. -/

namespace Sys2Proof

open Sys2Proof.Machine

/-- The command completes in `s` in a next state of which `P` holds. -/
def Completes (c : Instr) (s : State) (P : State → Prop) : Prop := ∃ t, exec c s = .next t ∧ P t

/-- The pieces of State. -/
inductive Piece where
  | pending
  | outs
  | free
  | variant
  | clk
  | host
  | parts
  | disp
  | mem
  | gol
  | cav
  | cld
  | bud
  | dram
  | ras
  | pwr
  | sec
  | mgmt
  | wq
deriving DecidableEq, Repr

/-- One piece is the same in both states. -/
def Piece.Same (p : Piece) (s t : State) : Prop :=
  match p with
  | .pending => t.pending = s.pending
  | .outs => t.outs = s.outs
  | .free => t.free = s.free
  | .variant => t.variant = s.variant
  | .clk => t.clk = s.clk
  | .host => t.host = s.host
  | .parts => t.parts = s.parts
  | .disp => t.disp = s.disp
  | .mem => t.mem = s.mem
  | .gol => t.gol = s.gol
  | .cav => t.cav = s.cav
  | .cld => t.cld = s.cld
  | .bud => t.bud = s.bud
  | .dram => t.dram = s.dram
  | .ras => t.ras = s.ras
  | .pwr => t.pwr = s.pwr
  | .sec => t.sec = s.sec
  | .mgmt => t.mgmt = s.mgmt
  | .wq => t.wq = s.wq

/-- The frame: every piece but those listed is the same in both states. -/
def OnlyChanges (l : List Piece) (s t : State) : Prop := ∀ p : Piece, p ∉ l → p.Same s t

/-- The contents of both tiers are in canonical form. -/
def MemoryOk (s : State) : Prop := Memory.wf s.mem.deep = true ∧ Memory.wf s.mem.near = true

/-! ### Premises of the statements -/

/-- No host request is outstanding at a port or waits at its ingress. -/
def HostIdle (s : State) : Prop := s.host.reqs = [] ∧ s.host.ingress = []

/-- No table slot holds another module's table or lends its own to one. -/
def OwnSlots (s : State) : Prop := ∀ x ∈ s.gol.slots, x.2.imp = false ∧ x.2.importers = []

/-- A host access of LD `l` at port `p` meets a plain line: an address of an unsealed HDM-H range of partition `q` outside its aperture and outside the cavern,
in a resident block that has no block-map entry, awaits no recovery and has no expanded copy, while no host request is outstanding and no table is shared. -/
def PlainNear (s : State) (p l hpa q : Nat) (t : Tgt) : Prop :=
  s.arrive p l hpa = .ok q t ∧ HostIdle s ∧ OwnSlots s ∧ s.pb.range? q t.span.idx = some t.span.rng ∧ t.span.rng.kind ≠ 1 ∧ t.span.rng.regionId = 0 ∧
  t.span.apt = false ∧ s.isSealed q t.span.idx = false ∧ (s.nearFind (t.line / 64)).isSome = true ∧ s.ent? (t.line / 64) = none ∧
  s.ras.recov.any (fun x => x.block == t.line / 64) = false ∧ s.staged (s.expander p) (t.line / 64) = none

/-- Partition `q` runs and has nothing under way: no operation of any partition is in a slot, and it has no cue, no pin and no posted descriptor; no host holds a line or waits for one. -/
def NothingUnderWay (s : State) (q : Nat) : Prop :=
  (s.part q).st = 0 ∧ (s.part q).reset = none ∧ (s.part q).pins = [] ∧ (s.part q).cue.cues = [] ∧ s.disp.ops = [] ∧ HostIdle s ∧ OwnSlots s ∧
  s.host.snoop = [] ∧ s.host.bi = [] ∧ ∀ r ∈ s.pb.ringsOf q, (s.ring r).sqTail = (s.ring r).sqHead

/-- `o` is the one operation of the dispatcher, of opcode `code` in slot `id`; it has passed its checks, has started or may start, may issue, and awaits no other. -/
def Turn (s : State) (id code : Nat) (o : Op) : Prop :=
  s.dataUp = true ∧ s.disp.ops = [o] ∧ o.id = id ∧ o.opcode = code ∧ o.desc.isEmpty = false ∧ o.checked = true ∧
  (o.started = true ∨ s.pwr.levelHub < 42) ∧ s.mayIssue o = true ∧
  o.phase ≠ .ended ∧ o.stage ≠ 9 ∧ o.waits = [] ∧ o.depFailed = false ∧ o.cvnBad = 0 ∧ o.truncated = false ∧ o.poisoned = false ∧ o.stale = false ∧ o.left = 0 ∧
  o.given = [] ∧ o.held = none ∧ o.waitSince = none

/-- The channel pairs grant what is asked of them: none holds its grants, drains writes or throttles an activity. -/
def PairsOpen (s : State) : Prop := s.mem.draining = [] ∧ s.bud.throttles = [] ∧ ∀ blk, s.deepHeld blk = false

/-- Nothing holds up an operation on local data: no host request waits, the channel pairs grant, no cue is loaded or has left a copy, no block is coded, awaits a recovery or has lost one,
no write waits in a merge buffer, and no line is poisoned. -/
def Quiet (s : State) : Prop :=
  HostIdle s ∧ PairsOpen s ∧ (∀ p, (s.part p).cue.cues = []) ∧ s.ras.recov = [] ∧ s.ras.gone = [] ∧ s.mem.bmap = [] ∧ s.mem.cueArea = [] ∧ s.mem.deepPoison = [] ∧
  s.mem.nearPoison = [] ∧ s.mem.merge = [] ∧ s.gol.sealedRanges = [] ∧ s.gol.slots = []

/-- Nothing but the dispatcher, memory and what stands beside it changes: the host ports, the cavern, the management processor, the power controller, the security and the wings queues are as
they were. -/
def DataOnly (s t : State) : Prop :=
  t.host = s.host ∧ t.cav = s.cav ∧ t.mgmt = s.mgmt ∧ t.pwr = s.pwr ∧ t.sec = s.sec ∧ t.wq = s.wq

/-- Every operand of the operation lies in an HDM-H range of this module; operand 9 is the entry that a region operation or a SEAL names, and is no operand of the data. -/
def LocalOperands (s : State) (o : Op) : Prop := ∀ n x, n ≠ 9 → s.operand o n = some x → x.rng.regionId = 0 ∧ x.rng.kind = 0

/-- The operation in slot `id` has ended with a status and a detail. -/
def Ended (t : State) (id status detail : Nat) : Prop := ∃ o, t.op? id = some o ∧ o.phase = .ended ∧ o.status = status ∧ o.detail = detail

/-- Nothing that waits at the hub die goes on because a frame has arrived: no host request, no write of a unit that is being rebuilt, no block that waits for its table; no port holds messages
for reordering or has sent XOFF. -/
def ColdonIdle (s : State) : Prop :=
  HostIdle s ∧ s.cav.landing = [] ∧ (∀ g ∈ s.pb.regions, (s.region g.rid).stalled = []) ∧ ∀ p, (s.cport p).xoff = false ∧ s.reorderBytes p = 0

/-- A frame with message `m` arrives at a port in service, passes every receive check and is delivered at once: the checks leave state `r`, in which the sender
is another module, its session is `x` on the port it had, and nothing else at the hub die waits for a frame. -/
def Arrives (s : State) (f : Frame) (m : ColdonMsg) (r : State) (x : Sess) : Prop :=
  s.dataUp = true ∧ (s.cport f.port).up = true ∧ s.receive f m = { s := r, msgs := [m] } ∧ f.src ≠ r.pb.moduleId ∧ r.sess? f.src = some x ∧
  (s.sess? f.src).map (·.port) = some x.port ∧ ColdonIdle r

/-- The next output after those of `s` is a frame of session `x` with message `m`: it carries the session's TXC, ACK and CREDIT, and its payload is sealed under the session's sending key with
its header as additional data. -/
def Sent (s t : State) (x : Sess) (seq : Option Nat) (retx : Bool) (m : ColdonMsg) : Prop :=
  ∃ w, t.outs = .frame x.port x.dst x.psid seq x.txc retx (x.rcvNxt % 2 ^ 32) (s.credit x.port) x.echoEce m w :: s.outs ∧
    (w.payload, w.tag) = sealPayload x.txKey x.txc w.header m.bytes

/-- A sequenced message is on its way to a peer: outstanding in its session, or queued behind the window. -/
def OnWay (t : State) (peer : Nat) (m : ColdonMsg) : Prop := ∃ y, t.sess? peer = some y ∧ ((∃ a, (a, m) ∈ y.sendq) ∨ ∃ o ∈ y.outst, o.msg = m)

/-- `lines` lines from cavern address `ca` lie in this module's footprint of region `rid` and can be served to a peer that gives the region's digest: the region is up to date here,
and no block of this module is coded, awaits a recovery or has writes waiting. -/
def ServesPlain (r : State) (rid digest ca lines : Nat) (g : PbRegion) : Prop :=
  r.pb.region? rid = some g ∧ r.holderCheck rid digest ca lines = 0 ∧ (r.region rid).unitsStale = false ∧ (r.region rid).rebuilding = false ∧
  r.mem.bmap = [] ∧ r.ras.recov = [] ∧ r.mem.merge = [] ∧ r.gol.sealedRanges = [] ∧
  ∀ y ∈ r.cav.accs, y.id < r.cav.nextAcc

/-- This module is the home of versioned region `rid`, with the digest given; its ALT_HOME is unreachable and known to be, and no message of the region and no reservation waits. -/
def HomeAlone (r : State) (rid digest : Nat) (g : PbRegion) : Prop :=
  r.pb.region? rid = some g ∧ g.digest = digest ∧ g.kind = 1 ∧ r.isHome g = true ∧ (r.region rid).mirrorLost = true ∧ r.cld.unreachable.contains g.altHome = true ∧
  (r.region rid).waitq = [] ∧ (r.region rid).inq = [] ∧ r.homeBusy rid = false

/-- Operation `o` is the dispatcher's only one, and access `a` of it is this module's only access: it waits for the one answer `tag` of `peer`. -/
def Awaits (r : State) (peer tag : Nat) (a : CvnAcc) (o : Op) : Prop :=
  (∃ y, r.cav.remote = [y] ∧ y.rtag = tag ∧ y.peer = peer ∧ y.acc = a.id) ∧ r.cav.accs = [a] ∧ a.waits = [tag] ∧ a.status = 0 ∧ a.lost = false ∧
  a.degraded = false ∧ a.data = [] ∧ a.poison = 0 ∧ r.disp.ops = [o]

/-- The management processor takes a request: it runs, and the request comes over I3C or from the fabric manager of a CXL port in L0. -/
def Answerable (s : State) (m : MgmtHdr) : Prop :=
  s.mgmtUp = true ∧ s.mgmt.phase ≠ .recovery ∧ (m.path = .i3c ∨ ∃ p, m.path = .cxlFm p ∧ s.hubUp = true ∧ p < 8 ∧ (s.port p).link = .l0)

/-- A management command answers: its response is the last output. -/
def Answers (t : State) (m : MgmtHdr) (code status cause : Nat) (r : Reply) : Prop := t.outs.head? = some (.mgmt m.path code m.tag status cause r)

end Sys2Proof
end

