-- ==== Sys2Proof/Certificates/Slice0/Obligations.lean ====
section
/-! DEFINITION. The statements for the provers. Each says in which states a command completes and what it leaves and changes there; the last ones speak of every step. -/

open Sys2Proof Sys2Proof.Machine

/-- Register accesses (Table 0-3, R12, R13): a read of the RC field PART_NOPERM answers its value and leaves the events counted in its cycle;
a 32-bit read of the lower half of a 64-bit RO register answers that half and latches the other, and a latched upper half is what a read of it answers;
a write of the lower half of a 64-bit RW register is held, a write of its upper half or of the whole takes effect; a write of an RO register changes nothing;
RAS_CFG (RWL) takes a value until the prompt book has been applied, after which a write of it is recorded as BAD_ACCESS and nothing else. -/
def Obligations.RegisterAccess : Prop :=
  (∀ (s : State) (p l n : Nat), s.ldReach p l = true →
    exec (.rcRead ⟨.ld p l, none⟩ 0x01000028 4 n) s =
      .next ((s.modPart (s.barPart p l) (fun x => { x with noPerm := n })).emit
        (.regValue (.ld p l) 0x01000028 4 ((s.part (s.barPart p l)).noPerm % 2 ^ 32)))) ∧
  (∀ (s : State) (k : Nat), s.mgmtUp = true → s.mgmt.phase ≠ .recovery → k < 8 →
    exec (.halfReadLatch ⟨.mgmt, none⟩ (0x100900100 + 0x1000 * k)) s =
      .next ((s.setLatch .mgmt (0x100900100 + 0x1000 * k) ((s.ctl (.deep k)).cntPostponed % 2 ^ 64 / 2 ^ 32)).emit
        (.regValue .mgmt (0x100900100 + 0x1000 * k) 4 ((s.ctl (.deep k)).cntPostponed % 2 ^ 64 % 2 ^ 32)))) ∧
  (∀ (s : State) (k x : Nat), s.mgmtUp = true → s.mgmt.phase ≠ .recovery → k < 8 → s.latchOf .mgmt (0x100900100 + 0x1000 * k) = some x →
    exec (.halfReadLatch ⟨.mgmt, none⟩ (0x100900104 + 0x1000 * k)) s =
      .next ((s.dropLatch .mgmt (0x100900100 + 0x1000 * k)).emit (.regValue .mgmt (0x100900104 + 0x1000 * k) 4 x))) ∧
  (∀ (s : State) (k v : Nat), s.mgmtUp = true → s.mgmt.phase ≠ .recovery → k < 8 →
    exec (.registerWrite ⟨.mgmt, none⟩ (0x100900010 + 0x1000 * k) 8 v) s =
      .next ((s.dropHeld .mgmt (0x100900010 + 0x1000 * k)).setXlateMa k v)) ∧
  (∀ (s : State) (k v : Nat), s.mgmtUp = true → s.mgmt.phase ≠ .recovery → k < 8 →
    Completes (.registerWrite ⟨.mgmt, none⟩ (0x100900010 + 0x1000 * k) 4 v) s (fun t =>
      t.heldHalf .mgmt (0x100900010 + 0x1000 * k) = some (v % 2 ^ 32) ∧ OnlyChanges [.host] s t)) ∧
  (∀ (s : State) (k v lo : Nat), s.mgmtUp = true → s.mgmt.phase ≠ .recovery → k < 8 →
    s.heldHalf .mgmt (0x100900010 + 0x1000 * k) = some lo →
    exec (.registerWrite ⟨.mgmt, none⟩ (0x100900014 + 0x1000 * k) 4 v) s =
      .next ((s.dropHeld .mgmt (0x100900010 + 0x1000 * k)).setXlateMa k (v % 2 ^ 32 * 2 ^ 32 + lo))) ∧
  (∀ (s : State) (k v : Nat), s.mgmtUp = true → s.mgmt.phase ≠ .recovery → k < 8 →
    exec (.registerWrite ⟨.mgmt, none⟩ (0x100900018 + 0x1000 * k) 8 v) s = .next s) ∧
  (∀ (s : State) (v : Nat), s.mgmtUp = true → s.mgmt.phase ≠ .recovery →
    exec (.registerWrite ⟨.mgmt, none⟩ 0x100700000 8 v) s =
      .next (if s.mgmt.rwlLocked then s.badAccess 0xFF 0x100700000 else (s.dropHeld .mgmt 0x100700000).setRasCfg (v % 2 ^ 64)))

/-- Failures (R18 to R20, R275, Table 1-2), while no host request is outstanding and no table is shared with another module. A unit in service that fails is marked failed, unless the module stops with it, as it
does with the hub die and with a deep-tier controller. A replay of a die-to-die transfer that passes ends the run of failures, one that fails, or that TST_REPLAY makes fail, lengthens it by one and
takes one off TST_REPLAY's count; after eight failures, or a loss of lock, the link is down. A replay on a hop is counted and lengthens or ends the run of its unit; after eight failures the unit is
declared failed. -/
def Obligations.UnitFailures : Prop :=
  (∀ (s : State) (u : UnitId), s.hubUp = true → unitExists u = true → s.isFailed u = false → HostIdle s → OwnSlots s →
    Completes (.unitFailure u) s (fun t => (t.isFailed u = true ∨ t.mgmt.phase = .off) ∧
      ((u = .hub ∨ ∃ n, u = .deepCtl n) → t.mgmt.phase = .off ∧ t.dataUp = false ∧ t.mem = {}))) ∧
  (∀ (s : State) (l : D2dLink) (ok : Bool), s.dataUp = true → s.ras.d2dDown.contains l = false →
    (s.wq.tstReplay % 16 ≠ 8 + d2dIdx l ∨ bits s.wq.tstReplay 15 8 = 0) →
    exec (.d2dReplay l ok) s = .next { s with ras := { s.ras with
      d2dFails := s.ras.d2dFails.filter (fun x => x.1 != l) ++ (if ok then [] else [(l, s.d2dRun l + 1)]) } }) ∧
  (∀ (s : State) (l : D2dLink) (ok : Bool), s.dataUp = true → s.ras.d2dDown.contains l = false →
    s.wq.tstReplay % 16 = 8 + d2dIdx l → bits s.wq.tstReplay 15 8 ≠ 0 →
    Completes (.d2dReplay l ok) s (fun t => t.d2dRun l = s.d2dRun l + 1 ∧ t.wq.tstReplay + 256 = s.wq.tstReplay ∧ OnlyChanges [.ras, .wq] s t)) ∧
  (∀ (s : State) (l : D2dLink) (lost : Bool), s.dataUp = true → s.ras.d2dDown.contains l = false → (lost = true ∨ 8 ≤ s.d2dRun l) → HostIdle s → OwnSlots s →
    Completes (.d2dLinkDown l lost) s (fun t => (t.ras.d2dDown.contains l = true ∨ t.mgmt.phase = .off) ∧ t.d2dRun l = 0 ∧
      (l = .aB → t.ras.d2dDown = s.ras.d2dDown ++ [.aB] ∧ t.ras.failed = s.ras.failed))) ∧
  (∀ (s : State) (u : UnitId) (ok : Bool), s.hubUp = true → s.isFailed u = false →
    Completes (.hopReplay u ok) s (fun t => t.ras.hopReplays = s.ras.hopReplays + 1 ∧ t.hopRun u = (if ok then 0 else s.hopRun u + 1) ∧
      OnlyChanges [.ras] s t)) ∧
  (∀ (s : State) (u : UnitId), s.hubUp = true → unitExists u = true → s.isFailed u = false → 8 ≤ s.hopRun u → HostIdle s → OwnSlots s →
    Completes (.hopFailed u) s (fun t => (t.isFailed u = true ∨ t.mgmt.phase = .off) ∧ t.hopRun u = 0))

/-- Windows that end (R240, R241, R253, R298). Once its counter has reached the boundary, a window of a point in service ends: no use is left in it, the uses of other points stand, and where one
activity alone had used it, that use is what the last window reads and is added to its total. An admission window that begins has no start in it. A throttle whose windows are all used ends,
and no other throttle does. No read of a share waits. -/
def Obligations.Windows : Prop :=
  (∀ (s : State) (cls pt : Nat) (waiting : List Nat) (panic : List (Nat × Nat)), s.pointRuns cls pt = true → s.nextBoundary cls pt ≤ (s.pointClock cls pt).1 → s.cav.heldReads = [] →
    Completes (.windowBoundary cls pt waiting panic) s (fun t =>
      t.useOf cls pt = [] ∧ (∀ act < 65536, t.useAt cls pt act = 0) ∧
      (∀ c q act, (c * 1024 + q ≠ cls * 1024 + pt) → act < 65536 → t.useAt c q act = s.useAt c q act) ∧
      (∀ act n, s.useOf cls pt = [(act, n)] → tabGet 0 t.bud.last (budKey cls pt act) = n ∧
        tabGet 0 t.bud.total (actKey cls act) = (tabGet 0 s.bud.total (actKey cls act) + n) % 2 ^ 64) ∧
      OnlyChanges [.bud, .dram, .host] s t)) ∧
  (∀ (s : State), s.dataUp = true → nextAt s.disp.winFrom 0 14336 ≤ s.clk.hmesh →
    Completes .admissionWindow s (fun t => t.disp.starts = 0 ∧ t.disp.ops = s.disp.ops ∧ OnlyChanges [.disp] s t)) ∧
  (∀ (s : State) (pair act : Nat) (x : Throttle), s.throttle? pair act = some x → x.left = 0 → s.cav.heldReads = [] →
    Completes (.throttleEnd pair act) s (fun t => t.throttle? pair act = none ∧
      (∀ y ∈ s.bud.throttles, (y.pair ≠ pair ∨ y.act ≠ trackAct act) → y ∈ t.bud.throttles) ∧ OnlyChanges [.bud] s t))

/-- Links of the CXL ports (R35, R37): a port in Detect that may train takes the best rate and width that both sides offer; without 256-byte flit it stays in Detect and
the event is counted; a trained port enters L0, and a port in L0 that retrains takes the best rate and width that both sides offer. No other port changes. -/
def Obligations.LinkTraining : Prop :=
  (∀ (s : State) (p rate : Nat) (x8 : Bool), s.portReady p = true → (s.port p).link = .detect →
    exec (.linkTraining p rate x8 true) s =
      .next (s.modPort p (fun x => { x with link := .trained, rate := min rate (s.portMax p).1, x8 := x8 && (s.portMax p).2 }))) ∧
  (∀ (s : State) (p rate : Nat) (x8 : Bool), s.portReady p = true → (s.port p).link = .detect →
    Completes (.linkTraining p rate x8 false) s (fun t => (t.port p).link = .detect ∧ (t.port p).flexCount = (s.port p).flexCount + 1 ∧
      ∀ q, q ≠ p → t.port q = s.port q)) ∧
  (∀ (s : State) (p : Nat), s.portReady p = true → (s.port p).link = .trained →
    Completes (.linkUp p) s (fun t => (t.port p).link = .l0 ∧ (t.port p).rate = (s.port p).rate ∧ (t.port p).l0At = tabGet 0 s.clk.link p ∧
      ∀ q, q ≠ p → t.port q = s.port q)) ∧
  (∀ (s : State) (p rate : Nat) (x8 : Bool), s.portReady p = true → (s.port p).link = .l0 →
    Completes (.linkRetrain p rate x8) s (fun t => (t.port p).link = .l0 ∧ (t.port p).rate = min rate (s.portMax p).1 ∧
      (t.port p).x8 = (x8 && (s.portMax p).2) ∧ ∀ q, q ≠ p → t.port q = s.port q))

/-- Port and LD resets (R38, R80, Table 3-21), while no host request is outstanding: a link that goes down, a falling PERST_N and a hot reset bring the port to Detect, and leave no request
outstanding and no key of its CXL.cachemem and link streams; the rise of PERST_N only raises the pin. A function level reset clears the LD's decoders, its MSI-X enable and mask bits and its SPDM
sessions, and leaves the link up. -/
def Obligations.PortAndLdResets : Prop :=
  (∀ (s : State) (p : Nat), (s.port p).link ≠ .detect → HostIdle s →
    Completes (.linkDown p) s (fun t => (t.port p).link = .detect ∧ (t.port p).cachemem = {} ∧ (t.port p).ioLink = {} ∧ t.host.reqs = [])) ∧
  (∀ (s : State) (p : Nat), p < 8 → (s.port p).perstLow = false → s.hubUp = true → HostIdle s →
    Completes (.perstNAssert p) s (fun t => (t.port p).link = .detect ∧ (t.port p).perstLow = true ∧ (t.port p).cachemem = {} ∧ (t.port p).ioLink = {} ∧
      t.host.reqs = [])) ∧
  (∀ (s : State) (p : Nat), p < 8 → exec (.perstNRelease p) s = .next (s.modPort p (fun x => { x with perstLow := false }))) ∧
  (∀ (s : State) (p : Nat), (s.port p).link = .l0 → HostIdle s →
    Completes (.hotReset p) s (fun t => (t.port p).link = .detect ∧ (t.port p).cachemem = {} ∧ (t.port p).ioLink = {} ∧ t.host.reqs = [])) ∧
  (∀ (s : State) (p l : Nat), (s.port p).link = .l0 → s.ldEnabled p l = true → HostIdle s →
    Completes (.functionLevelReset p l) s (fun t => (t.ld (ldIdx p l)).decoders = [] ∧ (t.ld (ldIdx p l)).msixEnable = false ∧
      (t.ld (ldIdx p l)).unmasked = [] ∧ (t.ld (ldIdx p l)).spdm = [] ∧ (t.port p).link = .l0))

/-- MSI-X masks and HDM decoders (R41, R42, R76): unmasking a vector whose message is pending sends it, and masking a vector of an LD that has no message pending only masks it; a decoder that host
software commits takes the settings written, and is committed where the model's check of R41 and R42 (`State.decoderOk`) passes, with Error Not Committed set otherwise; the check passes only for the ways,
granularities and multiples of 256 MiB of R41 and within the LD's capacity. No other decoder changes. -/
def Obligations.MsixAndDecoders : Prop :=
  (∀ (s : State) (p l v : Nat), (s.port p).link = .l0 → s.ldEnabled p l = true → v < 64 → (s.ld (ldIdx p l)).msixEnable = true →
    (s.ld (ldIdx p l)).funcMask = false → (s.ld (ldIdx p l)).pend = [v] →
    Completes (.msixUnmask p l (.maskEntry v false)) s (fun t => t.outs = .msix (ldIdx p l) v none :: s.outs ∧ (t.ld (ldIdx p l)).pend = [])) ∧
  (∀ (s : State) (p l v : Nat), (s.port p).link = .l0 → s.ldEnabled p l = true → v < 64 → (s.ld (ldIdx p l)).pend = [] →
    Completes (.msixUnmask p l (.maskEntry v true)) s (fun t => setHas (t.ld (ldIdx p l)).unmasked v = false ∧ OnlyChanges [.host] s t)) ∧
  (∀ (s : State) (p l idx base size skip ways gran : Nat) (bi : Bool) (ok : Bool), (s.port p).link = .l0 → s.ldEnabled p l = true → idx < 8 →
    s.decoderOk p l idx (tabSet (s.ld (ldIdx p l)).decoders idx { base := base, size := size, skip := skip, ways := ways, gran := gran, bi := bi }) = ok →
    Completes (.hdmDecoderCommit p l idx base size skip ways gran bi) s (fun t =>
      tabGet {} (t.ld (ldIdx p l)).decoders idx =
        { base := base, size := size, skip := skip, ways := ways, gran := gran, bi := bi, committed := ok, err := !ok } ∧
      (ok = true → ways ∈ [1, 2, 3, 4, 6, 8, 12, 16] ∧ gran ∈ [256, 512, 1024, 2048, 4096, 8192, 16384] ∧ base % 0x10000000 = 0 ∧
        size % 0x10000000 = 0 ∧ skip % 0x10000000 = 0 ∧ dpaBase (t.ld (ldIdx p l)).decoders idx + size / ways ≤ s.ldCap p l) ∧
      (∀ k, k ≠ idx → tabGet {} (t.ld (ldIdx p l)).decoders k = tabGet {} (s.ld (ldIdx p l)).decoders k) ∧ OnlyChanges [.host] s t))

/-- Host accesses to a plain resident line (R24, R44, R51): a write leaves the written bytes and their poison mark in the line, a partial write the bytes whose mask bit is set, and Cmp is sent; a read
that meets no error answers the line and its poison mark. No other line of either tier changes. -/
def Obligations.HostAccess : Prop :=
  (∀ (s : State) (p l tag hpa q : Nat) (t : Tgt) (mv : Meta) (data : Bytes) (poison : Bool), PlainNear s p l hpa q t →
    Completes (.memwr p l tag hpa mv true data poison) s (fun u => u.nearLine t.line = (slice data 0 64, poison) ∧
      (∀ n, n ≠ t.line → u.nearLine n = s.nearLine n) ∧ u.mem.deep = s.mem.deep ∧ u.host.reqs = [] ∧
      u.outs = .memCmp p l tag .noOp (s.devLoadOf p l) :: s.outs)) ∧
  (∀ (s : State) (p l tag hpa q : Nat) (t : Tgt) (mv : Meta) (data : Bytes) (mask : List Bool) (poison : Bool), PlainNear s p l hpa q t →
    Completes (.memwrptl ⟨p, true⟩ l tag hpa mv data mask poison) s (fun u =>
      u.nearLine t.line = (mergeBytes (s.nearLine t.line).1 (slice data 0 64) mask, poison || (s.nearLine t.line).2) ∧
      (∀ n, n ≠ t.line → u.nearLine n = s.nearLine n) ∧ u.mem.deep = s.mem.deep ∧ u.host.reqs = [] ∧
      u.outs = .memCmp p l tag .noOp (s.devLoadOf p l) :: s.outs)) ∧
  (∀ (s : State) (p l tag hpa q : Nat) (t : Tgt) (mv : Meta), PlainNear s p l hpa q t →
    Completes (.memrd p l tag hpa mv true [] false []) s (fun u =>
      u.outs.head? = some (.memData p l tag (s.nearLine t.line).1 (s.nearLine t.line).2 .noOp (s.devLoadOf p l)) ∧
      u.mem.near = s.mem.near ∧ u.mem.deep = s.mem.deep ∧ u.mem.nearPoison = s.mem.nearPoison ∧ u.host.reqs = []))

/-- Headline: a host read that follows a host write to the same plain resident line, and meets no error, answers the bytes written, with their poison mark. -/
def Obligations.HostReadReturnsHostWrite : Prop :=
  ∀ (s : State) (p l tag tag' hpa q : Nat) (t : Tgt) (mv mv' : Meta) (data : Bytes) (poison : Bool), PlainNear s p l hpa q t →
    Completes (.memwr p l tag hpa mv true data poison) s (fun u =>
      Completes (.memrd p l tag' hpa mv' true [] false []) u (fun v =>
        v.outs.head? = some (.memData p l tag' (slice data 0 64) poison .noOp (s.devLoadOf p l))))

/-- Coherence messages of the host side (R42, R44, R46, R49, R50), while no other host request is outstanding and no table is shared: MemSpecRd of a plain resident line does nothing, and of a line that
only the deep tier holds, in a page whose hint allocates, it starts a read; MemInv of a line that no host holds records the holder and completes, and off HDM-DB it only completes, as MemClnEvct does
too; on HDM-DB MemClnEvct ends the holding. The BIRsp that ends the only BISnp removes it and the holding, and its write-back of a resident line is stored; BIConflict is acknowledged; and a BISnp that
times out leaves its LD dead. TST_REPLAY's count at the port is used up by a request. -/
def Obligations.HostCoherence : Prop :=
  (∀ (s : State) (p l hpa q : Nat) (t : Tgt), PlainNear s p l hpa q t →
    Completes (.memspecrd ⟨p, true⟩ l hpa) s (fun u => u.wq = (s.forcedAt p).wq ∧ OnlyChanges [.wq, .gol] s u)) ∧
  (∀ (s : State) (p l hpa q : Nat) (t : Tgt), s.arrive p l hpa = .ok q t → HostIdle s → OwnSlots s → t.span.apt = false → s.isSealed q t.span.idx = false →
    t.span.rng.regionId = 0 → (s.nearFind (t.line / 64)).isSome = false → s.hintAt t.span.rng t.span.idx t.off ≤ 1 →
    Completes (.memspecrd ⟨p, true⟩ l hpa) s (fun u => OnlyChanges [.host, .wq, .gol] s u ∧ ∃ r, u.host.reqs = [r] ∧ r.op = .spec ∧ r.line = t.line ∧ r.wait = .deep)) ∧
  (∀ (s : State) (p l tag hpa q : Nat) (t : Tgt) (mv : Meta), s.arrive p l hpa = .ok q t → HostIdle s → OwnSlots s →
    (t.span.rng.kind ≠ 1 ∨ t.span.apt = true ∨ s.isSealed q t.span.idx = true) →
    Completes (.meminv ⟨p, true⟩ l tag hpa mv) s (fun u => u.outs = .memCmp p l tag .noOp (s.devLoadOf p l) :: s.outs ∧ OnlyChanges [.outs, .wq, .gol] s u) ∧
    Completes (.memclnevct ⟨p, true⟩ l tag hpa) s (fun u => u.outs = .memCmp p l tag .noOp (s.devLoadOf p l) :: s.outs ∧ OnlyChanges [.outs, .wq, .gol] s u)) ∧
  (∀ (s : State) (p l tag hpa q : Nat) (t : Tgt) (mv : Meta), s.arrive p l hpa = .ok q t → HostIdle s → OwnSlots s → s.pb.range? q t.span.idx = some t.span.rng →
    t.span.rng.kind = 1 → t.span.apt = false → s.isSealed q t.span.idx = false → s.host.snoop = [] → s.host.bi = [] → (mv = .any ∨ mv = .shared) →
    Completes (.meminv ⟨p, true⟩ l tag hpa mv) s (fun u => (u.snoopEnt t.line).holders = [(ldIdx p l, mv)] ∧
      u.outs = .memCmp p l tag .noOp (s.devLoadOf p l) :: s.outs ∧ OnlyChanges [.host, .outs, .wq, .gol] s u)) ∧
  (∀ (s : State) (p l tag hpa q : Nat) (t : Tgt), s.arrive p l hpa = .ok q t → HostIdle s → OwnSlots s → t.span.rng.kind = 1 → t.span.apt = false →
    s.isSealed q t.span.idx = false →
    Completes (.memclnevct ⟨p, true⟩ l tag hpa) s (fun u => (∀ h ∈ (u.snoopEnt t.line).holders, h.1 ≠ ldIdx p l) ∧
      u.outs = .memCmp p l tag .noOp (s.devLoadOf p l) :: s.outs ∧ OnlyChanges [.host, .outs, .wq, .gol] s u)) ∧
  (∀ (s : State) (p l line : Nat) (b : BiOut), s.biFind line (ldIdx p l) = some b → (s.port p).link = .l0 → HostIdle s → s.host.bi = [b] →
    Completes (.birsp ⟨p, true⟩ l line .i none) s (fun u => u.host.bi = [] ∧ (∀ h ∈ (u.snoopEnt line).holders, h.1 ≠ ldIdx p l) ∧ OnlyChanges [.host] s u)) ∧
  (∀ (s : State) (p l line : Nat) (b : BiOut) (data : Bytes) (poison : Bool), s.biFind line (ldIdx p l) = some b → (s.port p).link = .l0 → s.ideBlocked p = false →
    HostIdle s → s.host.bi = [b] → (s.nearFind (line / 64)).isSome = true →
    Completes (.birsp ⟨p, true⟩ l line .i (some (data, poison))) s (fun u => u.host.bi = [] ∧ u.nearLine line = (slice data 0 64, poison) ∧
      (∀ n, n ≠ line → u.nearLine n = s.nearLine n) ∧ u.mem.deep = s.mem.deep)) ∧
  (∀ (s : State) (p l line : Nat) (b : BiOut), s.biFind line (ldIdx p l) = some b → (s.port p).link = .l0 →
    exec (.biconflict ⟨p, true⟩ l line) s = .next (s.emit (.biConflictAck p l line))) ∧
  (∀ (s : State) (p l line : Nat) (b : BiOut), s.biFind line (ldIdx p l) = some b → b.sentAt.getD 0 + s.biLimit p ≤ s.clk.hmesh → HostIdle s →
    Completes (.biTimeout p l line) s (fun u => (u.ld (ldIdx p l)).dead = true ∧ ∀ x ∈ u.host.bi, x.ldIdx ≠ ldIdx p l))

/-- Data that returns and data that drains (R24, R126, R281), while no table is shared: the deep-tier read of the one outstanding load, of an unmapped block in a page that does not allocate, answers the value
the line had when the load came, where the pair grants it; a whole-line write at the front of a pair's merge buffer that the pair grants is applied to its line of the deep tier and leaves
the buffer; an expanded block answers the load that waits for it. -/
def Obligations.DataReturn : Prop :=
  (∀ (s : State) (r : HostReq) (rng : PbRange), s.host.reqs = [r] → s.host.ingress = [] → OwnSlots s → r.op = .rd → r.wait = .deep → s.pb.range? r.part r.range = some rng → rng.kind ≠ 1 →
    2 ≤ s.hintAt rng r.range (64 * r.line - rng.maBase) → s.ent? (r.line / 64) = none → s.nearFind (r.line / 64) = none →
    s.deepStopped (r.line / 64) r.part 64 = false → s.deepTurn { line := r.line, act := r.part, rd := true } = true → s.ras.recov = [] →
    Completes (.deepReadReturn r.id []) s (fun t => t.outs.head? = some (.memData r.port r.ld r.tag (r.val.getD (s.lowLine r.line)).1 (r.val.getD (s.lowLine r.line)).2 .noOp
        (s.devLoadOf r.port r.ld)) ∧
      t.host.reqs = [] ∧ t.mem.deep = s.mem.deep ∧ t.mem.near = s.mem.near)) ∧
  (∀ (s : State) (pair line act : Nat) (d : Bytes) (poison : Bool) (rest : List MergeEnt),
    s.mergeQ pair = { line := line, op := .full d poison, act := act } :: rest → s.deepHeld (line / 64) = false → s.mayGrant pair act 64 = true →
    (s.drains (line / 64) = true ∨ s.deepTurn { line := line, act := act, rd := false } = true) →
    Completes (.mergeBufferWrite pair []) s (fun t => t.deepLine line = (slice d 0 64, poison) ∧ t.mergeQ pair = rest ∧
      (∀ n, n ≠ line → t.deepLine n = s.deepLine n) ∧ t.mem.near = s.mem.near)) ∧
  (∀ (s : State) (p blk : Nat) (r : HostReq) (bs : Bytes), s.host.reqs = [r] → s.host.ingress = [] → OwnSlots s → r.wait = .expand → s.expander r.port = s.expander p → r.line / 64 = blk →
    s.isFailed (.egressExpander (s.expander p)) = false → s.mem.expanding = [] → s.plainBlock blk = .ok bs →
    Completes (.egressExpansionDone p blk) s (fun t => t.host.reqs = [] ∧
      t.outs.head? = some (.memData r.port r.ld r.tag (slice bs (64 * (r.line % 64)) 64) (setHas (s.poisonOf blk) r.line) .noOp (s.devLoadOf r.port r.ld))))

/-- IDE streams (R55, R56) of a port with an established SPDM session: keys programmed make a stream that is not Secure Secure with them, and wait on a Secure one, which takes them when its key
set changes; no other stream of the port changes. -/
def Obligations.IdeKeys : Prop :=
  (∀ (s : State) (p l session ks : Nat) (st : IdeStream), s.sessionLd p session = some l → ideStreamOk st = true → (s.ide p st).st ≠ .secure →
    Completes (.ideKmKeyProg p st session ks) s (fun t => t.ide p st = { st := .secure, key := (s.ide p st).key + 1, keySet := ks, next := none } ∧
      (∀ st', st' ≠ st → t.ide p st' = s.ide p st') ∧ OnlyChanges [.host, .outs] s t)) ∧
  (∀ (s : State) (p l session ks : Nat) (st : IdeStream), s.sessionLd p session = some l → ideStreamOk st = true → (s.ide p st).st = .secure →
    Completes (.ideKmKeyProg p st session ks) s (fun t => (t.ide p st).st = .secure ∧ (t.ide p st).key = (s.ide p st).key ∧
      (t.ide p st).keySet = (s.ide p st).keySet ∧ (t.ide p st).next = some (ks, (s.ide p st).key + 1) ∧
      (∀ st', st' ≠ st → t.ide p st' = s.ide p st') ∧ OnlyChanges [.host, .outs] s t)) ∧
  (∀ (s : State) (p ks k : Nat) (st : IdeStream), (s.port p).link = .l0 → (s.ide p st).st = .secure → (s.ide p st).next = some (ks, k) →
    Completes (.ideKeySetChange p st) s (fun t => (t.ide p st).key = k ∧ (t.ide p st).keySet = ks ∧ (t.ide p st).next = none ∧ (t.ide p st).st = .secure ∧
      (∀ st', st' ≠ st → t.ide p st' = s.ide p st') ∧ OnlyChanges [.host] s t))

/-- DOE (R57): discovery names the protocol at an index and the next index, 0 after the last; an object of another protocol is answered with an error; entry 0 of CDAT is its header,
and every other entry is answered with the next one's number, 0xFFFF after the last. Nothing but what is sent changes. -/
def Obligations.DoeAnswers : Prop :=
  (∀ (s : State) (p l i v y : Nat), s.ldReach p l = true → doeProtocols[i]? = some (v, y) →
    exec (.doeDiscovery p l i) s = .next (s.emit (.doe p l { code := 0, vals := [v, y, if i + 1 < 4 then i + 1 else 0] }))) ∧
  (∀ (s : State) (p l v y : Nat), s.ldReach p l = true → (v, y) ∉ doeProtocols →
    exec (.doeUnknownObject p l v y) s = .next (s.emit (.doeError p l))) ∧
  (∀ (s : State) (p l : Nat), s.ldReach p l = true →
    exec (.cdatTableAccess p l 0) s = .next (s.emit (.doe p l
      { code := 0, vals := [if 0 < (s.cdat p l).length then 1 else 0xFFFF, (s.ld (ldIdx p l)).cdatSeq, (s.cdat p l).length] }))) ∧
  (∀ (s : State) (p l n : Nat) (c : Cdat), s.ldReach p l = true → (s.cdat p l)[n]? = some c →
    exec (.cdatTableAccess p l (n + 1)) s = .next (s.emit (.doe p l
      { code := 0, vals := (if n + 1 < (s.cdat p l).length then n + 2 else 0xFFFF) :: c.vals })))

/-- SPDM requests outside a session (R318, R319) at an end point that is up: the version is 1.3, the algorithms are picked from those offered, slot 0 alone holds a chain, of which an offset past its end names nothing,
the challenge is signed, and the measurements answer index 0 with their number 6. Nothing but what is sent changes. -/
def Obligations.SpdmRequests : Prop :=
  (∀ (s : State) (ep : SpdmEp), s.spdmUp ep = true → exec (.getVersion ep) s = .next (s.emit (.spdm ep { code := 0x04, vals := [0x1300] }))) ∧
  (∀ (s : State) (ep : SpdmEp), s.spdmUp ep = true → exec (.getCapabilities ep) s = .next (s.emit (.spdm ep { code := 0x61, vals := [spdmCaps] }))) ∧
  (∀ (s : State) (ep : SpdmEp) (a h d e : Nat), s.spdmUp ep = true →
    exec (.negotiateAlgorithms ep a h d e) s = .next (s.emit (.spdm ep
      { code := 0x63, vals := [if a.testBit 8 then 256 else 0, if h.testBit 2 then 4 else 0, if d.testBit 5 then 32 else 0, if e.testBit 1 then 2 else 0] }))) ∧
  (∀ (s : State) (ep : SpdmEp) (off len : Nat), s.spdmUp ep = true →
    Completes (.getCertificate ep 0 off len) s (fun t => ∃ r, t = s.emit (.spdm ep r) ∧
      (off < (Config.certChain s.runningFw).length → r.code = 0x02 ∧ r.data = ((Config.certChain s.runningFw).drop off).take len) ∧
      ((Config.certChain s.runningFw).length ≤ off → r = { code := 0x7F, vals := [0x01] }))) ∧
  (∀ (s : State) (ep : SpdmEp) (slot off len : Nat), s.spdmUp ep = true → slot ≠ 0 →
    exec (.getCertificate ep slot off len) s = .next (s.emit (.spdm ep { code := 0x7F, vals := [0x01] }))) ∧
  (∀ (s : State) (ep : SpdmEp) (nonce : Bytes), s.spdmUp ep = true →
    exec (.challenge ep 0 nonce) s = .next (s.emit (.spdm ep { code := 0x03, vals := [0], data := Config.aliasSign s.runningFw nonce }))) ∧
  (∀ (s : State) (ep : SpdmEp) (nonce : Bytes), s.spdmUp ep = true →
    exec (.getMeasurements ep 0 false nonce) s = .next (s.emit (.spdm ep { code := 0x60, vals := [6, 0] }))) ∧
  (∀ (s : State) (ep : SpdmEp) (k : Nat) (nonce : Bytes), s.spdmUp ep = true → 1 ≤ k → k ≤ 6 →
    exec (.getMeasurements ep k false nonce) s =
      .next (s.emit (.spdm ep { code := 0x60, vals := [1, (s.measBlock k).length], data := s.measBlock k })))

/-- SPDM sessions (R318): KEY_EXCHANGE opens one with a new number, or answers BUSY when the end point holds 4; SPDM_FINISH establishes it; HEARTBEAT, KEY_UPDATE and END_SESSION act on
the one, established, session of the end point. Nothing but sessions, the number of the next one and what is sent changes. -/
def Obligations.SpdmSessions : Prop :=
  (∀ (s : State) (ep : SpdmEp) (rq : Nat) (x : Bytes), s.spdmUp ep = true → (s.spdmSessions ep).length < 4 →
    Completes (.keyExchange ep rq x) s (fun t => t.spdmSessions ep = s.spdmSessions ep ++ [{ id := s.sec.spdmNext, established := false, phase := 0 }] ∧
      t.sec.spdmNext = s.sec.spdmNext + 1 ∧ OnlyChanges [.host, .sec, .outs] s t)) ∧
  (∀ (s : State) (ep : SpdmEp) (rq : Nat) (x : Bytes), s.spdmUp ep = true → 4 ≤ (s.spdmSessions ep).length →
    exec (.keyExchange ep rq x) s = .next (s.emit (.spdm ep { code := 0x7F, vals := [0x03] }))) ∧
  (∀ (s : State) (ep : SpdmEp) (k ph : Nat), s.spdmUp ep = true → s.spdmSessions ep = [{ id := k, established := false, phase := ph }] →
    Completes (.spdmFinish ep k true) s (fun t => t.spdmSessions ep = [{ id := k, established := true, phase := ph }] ∧ OnlyChanges [.host, .sec, .outs] s t)) ∧
  (∀ (s : State) (ep : SpdmEp) (k ph : Nat), s.spdmUp ep = true → s.spdmSessions ep = [{ id := k, established := false, phase := ph }] →
    Completes (.spdmFinish ep k false) s (fun t => t.spdmSessions ep = [] ∧ OnlyChanges [.host, .sec, .outs] s t)) ∧
  (∀ (s : State) (ep : SpdmEp) (k ph : Nat), s.spdmUp ep = true → s.spdmSessions ep = [{ id := k, established := true, phase := ph }] →
    exec (.heartbeat ep k) s = .next (s.emit (.spdm ep { code := 0x68, vals := [k] }))) ∧
  (∀ (s : State) (ep : SpdmEp) (k ph : Nat), s.spdmUp ep = true → s.spdmSessions ep = [{ id := k, established := true, phase := ph }] →
    Completes (.keyUpdate ep k) s (fun t => t.spdmSessions ep = [{ id := k, established := true, phase := ph + 1 }] ∧ OnlyChanges [.host, .sec, .outs] s t)) ∧
  (∀ (s : State) (ep : SpdmEp) (k ph : Nat), s.spdmUp ep = true → s.spdmSessions ep = [{ id := k, established := true, phase := ph }] →
    Completes (.endSession ep k) s (fun t => t.spdmSessions ep = [] ∧ OnlyChanges [.host, .sec, .outs] s t))

/-- FM API commands over the FM-owned LD of a port or over I3C (R40, Table 2-2), outside safe mode: what each answers. Those that only read change nothing but what is sent;
the Set commands of quality of service are Unsupported; an allocation equal to the current one is accepted, and one that differs from it is Invalid Input and is logged. -/
def Obligations.FmApi : Prop :=
  ∀ (s : State) (p : FmPath) (q : Nat), (p = .fmLd q ∨ p = .i3c q) → s.fmUp p = true → s.mgmt.phase ≠ .safe →
    exec (.getLdInfo p) s = .next (s.emit (.fmApi p stOk { code := mbSuccess, vals := [((List.range (s.ldCount q)).map (s.ldCap q)).sum, s.ldCount q] })) ∧
    exec (.getLdAllocations p) s = .next (s.emit (.fmApi p stOk { code := mbSuccess, vals := s.ldAllocs q })) ∧
    exec (.setLdAllocations p (s.ldAllocs q)) s = .next (s.emit (.fmApi p stOk { code := mbSuccess })) ∧
    (∀ alloc, alloc ≠ s.ldAllocs q → Completes (.setLdAllocations p alloc) s (fun t => t.pb = s.pb ∧ t.mgmt.logNext = (s.mgmt.logNext + 1) % 2 ^ 32 ∧
      t.outs.head? = some (.fmApi p stBadDescriptor { code := mbInvalidInput }))) ∧
    exec (.getQosControl p) s = .next (s.emit (.fmApi p stOk { code := mbSuccess, vals := [s.pb.mark1, s.pb.mark2, s.pb.mark3] })) ∧
    exec (.setQosControl p) s = .next (s.emit (.fmApi p stBadDescriptor { code := mbUnsupported })) ∧
    exec (.getQosStatus p) s = .next (s.emit (.fmApi p stOk { code := mbSuccess, vals := [s.entries q * 100 / 1024] })) ∧
    exec (.getQosAllocatedBw p) s = .next (s.emit (.fmApi p stOk
      { code := mbSuccess, vals := (List.range (s.ldCount q)).map (fun l => s.entitled (actLd (ldIdx q l)) clsHost * 256 / s.capNow clsHost q) })) ∧
    exec (.setQosAllocatedBw p) s = .next (s.emit (.fmApi p stBadDescriptor { code := mbUnsupported })) ∧
    exec (.getQosBwLimit p) s = .next (s.emit (.fmApi p stOk { code := mbSuccess, vals := List.replicate (s.ldCount q) 255 })) ∧
    exec (.setQosBwLimit p) s = .next (s.emit (.fmApi p stBadDescriptor { code := mbUnsupported }))

/-- Mailbox commands that an LD answers with what the module holds (Table 2-7), while its host reaches it and the module is not in safe mode; in safe mode Get Response Message Limit
and Sanitize, which do not run there, answer Media Disabled (R61). Nothing but what is sent, and the count of free values, changes. -/
def Obligations.MailboxInformation : Prop :=
  (∀ (s : State) (p l : Nat), s.ldReach p l = true → s.mgmt.phase ≠ .safe →
    exec (.identify p l) s = .next (s.emit (.mailbox p l 0x0001 stOk { code := 0, vals := [0x1F3E, 0x0D01], data := Config.serial })) ∧
    exec (.getResponseMessageLimit p l) s = .next (s.emit (.mailbox p l 0x0003 stOk { code := 0, vals := [4096] })) ∧
    exec (.getEventInterruptPolicy p l) s = .next (s.emit (.mailbox p l 0x0102 stOk
      { code := 0, vals := (List.range 4).map (fun i => b2n ((s.ld (ldIdx p l)).evPolicy[i]?.getD false)) ++ [0] })) ∧
    Completes (.getFwInfo p l) s (fun t => ∃ r, t = s.emit (.mailbox p l 0x0200 stOk r) ∧ r.code = 0 ∧ r.vals = [2, s.mgmt.slot] ∧ r.data.length = 32) ∧
    exec (.getSupportedLogs p l) s = .next (s.emit (.mailbox p l 0x0400 stOk { code := 0, vals := [1, Config.commandEffectsLog.length] })) ∧
    (∀ off len, off + len ≤ Config.commandEffectsLog.length →
      exec (.getLog p l 0 off len) s = .next (s.emit (.mailbox p l 0x0401 stOk { code := 0, data := (Config.commandEffectsLog.drop off).take len }))) ∧
    exec (.getLogCapabilities p l 0) s = .next (s.emit (.mailbox p l 0x0402 stOk { code := 0, vals := [0] })) ∧
    (∀ log, exec (.clearLog p l log) s = .next (s.emit (.mailbox p l 0x0403 stBadDescriptor { code := 2 }))) ∧
    exec (.identifyMemoryDevice p l) s = .next (s.emit (.mailbox p l 0x4000 stOk
      { code := 0, vals := [s.ldCap p l / 0x10000000, s.ldCap p l / 0x10000000, 0, 0, 256, 64] })) ∧
    Completes (.getHealthInfo p l) s (fun t => ∃ r, t = s.emit (.mailbox p l 0x4200 stOk r) ∧ r.code = 0 ∧ r.vals[0]? = some (b2n s.degraded) ∧
      r.vals[1]? = some 0 ∧ r.vals[4]? = some (s.part (s.barPart p l)).ceCount) ∧
    exec (.getAlertConfiguration p l) s = .next (s.emit (.mailbox p l 0x4201 stOk
      { code := 0, vals := [b2n (s.ld (ldIdx p l)).alertTemp.isSome, (s.ld (ldIdx p l)).alertTemp.getD 0,
                            b2n (s.ld (ldIdx p l)).alertCe.isSome, (s.ld (ldIdx p l)).alertCe.getD 0] })) ∧
    exec (.getScanMediaResults p l) s = .next (s.emit (.mailbox p l 0x4305 stOk { code := 0, vals := (s.ld (ldIdx p l)).scan })) ∧
    ((s.part (s.barPart p l)).bg = none → exec (.backgroundOperationStatus p l) s = .next (s.emit (.mailbox p l 0x0002 stOk { code := 0, vals := [0] })))) ∧
  (∀ (s : State) (p l : Nat) (b : BgCmd), s.ldReach p l = true → s.mgmt.phase ≠ .safe → (s.part (s.barPart p l)).bg = some b →
    Completes (.backgroundOperationStatus p l) s (fun t => OnlyChanges [.free, .outs] s t ∧
      ∃ n, n ≤ 100 ∧ t.outs = .mailbox p l 0x0002 stOk { code := 0, vals := [1, b.opcode, n] } :: s.outs)) ∧
  (∀ (s : State) (p l dpa len : Nat), s.ldReach p l = true → s.mgmt.phase ≠ .safe →
    Completes (.getScanMediaCapabilities p l dpa len) s (fun t => OnlyChanges [.free, .outs] s t ∧
      ∃ r, t.outs = .mailbox p l 0x4303 stOk r :: s.outs ∧ r.code = 0)) ∧
  (∀ (s : State) (p l : Nat), s.ldReach p l = true → s.mgmt.phase = .safe →
    exec (.getResponseMessageLimit p l) s = .next (s.emit (.mailbox p l 0x0003 (mbStatus 7) { code := 7 })) ∧
    exec (.sanitize p l) s = .next (s.emit (.mailbox p l 0x4400 (mbStatus 7) { code := 7 })))

/-- The mailbox commands that Table 2-7 answers with Unsupported, and every opcode it does not list, outside safe mode: the answer is Unsupported and nothing else changes (R59). -/
def Obligations.MailboxUnsupported : Prop :=
  (∀ (s : State) (p l : Nat), s.ldReach p l = true → s.mgmt.phase ≠ .safe →
    exec (.transferFw p l) s = .next (s.emit (.mailbox p l 0x0201 stBadDescriptor { code := 3 })) ∧
    exec (.activateFw p l) s = .next (s.emit (.mailbox p l 0x0202 stBadDescriptor { code := 3 })) ∧
    exec (.setTimestamp p l) s = .next (s.emit (.mailbox p l 0x0301 stBadDescriptor { code := 3 })) ∧
    exec (.getPartitionInfo p l) s = .next (s.emit (.mailbox p l 0x4100 stBadDescriptor { code := 3 })) ∧
    exec (.setPartitionInfo p l) s = .next (s.emit (.mailbox p l 0x4101 stBadDescriptor { code := 3 })) ∧
    exec (.getLsa p l) s = .next (s.emit (.mailbox p l 0x4102 stBadDescriptor { code := 3 })) ∧
    exec (.setLsa p l) s = .next (s.emit (.mailbox p l 0x4103 stBadDescriptor { code := 3 })) ∧
    exec (.getShutdownState p l) s = .next (s.emit (.mailbox p l 0x4203 stBadDescriptor { code := 3 })) ∧
    exec (.setShutdownState p l) s = .next (s.emit (.mailbox p l 0x4204 stBadDescriptor { code := 3 })) ∧
    exec (.getSecurityState p l) s = .next (s.emit (.mailbox p l 0x4500 stBadDescriptor { code := 3 })) ∧
    exec (.setPassphrase p l) s = .next (s.emit (.mailbox p l 0x4501 stBadDescriptor { code := 3 })) ∧
    exec (.disablePassphrase p l) s = .next (s.emit (.mailbox p l 0x4502 stBadDescriptor { code := 3 })) ∧
    exec (.unlock p l) s = .next (s.emit (.mailbox p l 0x4503 stBadDescriptor { code := 3 })) ∧
    exec (.freezeSecurityState p l) s = .next (s.emit (.mailbox p l 0x4504 stBadDescriptor { code := 3 })) ∧
    exec (.passphraseSecureErase p l) s = .next (s.emit (.mailbox p l 0x4505 stBadDescriptor { code := 3 }))) ∧
  (∀ (s : State) (p l op : Nat), s.ldReach p l = true → s.mgmt.phase ≠ .safe → mbListed op = false →
    exec (.unsupportedOpcode p l op) s = .next (s.emit (.mailbox p l op stBadDescriptor { code := 3 })))

/-- Event records and settings of an LD (R75, R346, R351, Table 2-7): Get Event Records of an LD without alerts answers the bytes of the entries of a log from its bookmark on that the LD's view shows, and
moves no bookmark when none was overtaken; Clear Event Records of the one entry shown moves the bookmark past it; the interrupt policy and the alert thresholds take what is written;
the timestamp is 2c + LOG_TIME_OFFSET once the time is known. -/
def Obligations.MailboxEventsAndSettings : Prop :=
  (∀ (s : State) (p l log max : Nat), s.ldReach p l = true → log < 4 → (s.logFrom (s.ldBookmark p l log)).1 = 0 → (s.ld (ldIdx p l)).alerts = [] →
    Completes (.getEventRecords p l log max) s (fun t => ∃ r, t = s.emit (.mailbox p l 0x0100 stOk r) ∧ r.code = 0 ∧
      r.data = (((s.logFrom (s.ldBookmark p l log)).2.filter (s.inView p l log)).take max).flatMap LogEnt.bytes)) ∧
  (∀ (s : State) (p l log : Nat) (e : LogEnt), s.ldReach p l = true → s.mgmt.phase ≠ .safe → log < 4 →
    (s.logFrom (s.ldBookmark p l log)).2.filter (s.inView p l log) = [e] →
    Completes (.clearEventRecords p l log [e.seq % 65536]) s (fun t => t.ldBookmark p l log = (e.seq + 1) % 2 ^ 32 ∧ OnlyChanges [.host, .outs] s t ∧
      t.outs = .mailbox p l 0x0101 stOk { code := 0 } :: s.outs)) ∧
  (∀ (s : State) (p l : Nat) (sg : List Bool), s.ldReach p l = true → s.mgmt.phase ≠ .safe →
    exec (.setEventInterruptPolicy p l sg) s =
      .next ((s.modLd (ldIdx p l) (fun x => { x with evPolicy := sg.take 4 })).emit (.mailbox p l 0x0103 stOk { code := 0 }))) ∧
  (∀ (s : State) (p l temp ce : Nat), s.ldReach p l = true → s.mgmt.phase ≠ .safe →
    exec (.setAlertConfiguration p l temp ce) s =
      .next ((s.modLd (ldIdx p l) (fun x => { x with alertTemp := some temp, alertCe := some ce })).emit (.mailbox p l 0x4202 stOk { code := 0 }))) ∧
  (∀ (s : State) (p l : Nat), s.ldReach p l = true → s.mgmt.phase ≠ .safe → s.mgmt.timeKnown = false →
    exec (.getTimestamp p l) s = .next (s.emit (.mailbox p l 0x0300 stOk { code := 0, vals := [0] }))) ∧
  (∀ (s : State) (p l off : Nat), s.ldReach p l = true → s.mgmt.phase ≠ .safe → s.mgmt.timeKnown = true → s.mgmt.timeOffset = (off : Int) →
    2 * s.clk.mgmt + off < 2 ^ 64 →
    exec (.getTimestamp p l) s = .next (s.emit (.mailbox p l 0x0300 stOk { code := 0, vals := [2 * s.clk.mgmt + off] })))

/-- Poison and background commands of the mailbox (R60, R61, R279, R286): the poison list answers at most 256 records and says when there are more; Inject Poison marks a line of a deep-tier-backed range that
is not resident, fewer than 64 being injected, only where the security policy permits it; Clear Poison stores the bytes and clears the mark of a resident line; Scan Media, Sanitize and Secure Erase
start in the background where none runs: the last two begin a partition reset where the partition has nothing under way, and join the reload where one runs; Sanitize and Secure Erase
are Busy while one runs; a scan that meets no error leaves its results, and an ended erasure returns the partition to service. -/
def Obligations.MailboxPoisonAndBackground : Prop :=
  (∀ (s : State) (p l dpa len : Nat), s.ldReach p l = true → s.mgmt.phase ≠ .safe →
    Completes (.getPoisonList p l dpa len) s (fun t => ∃ r, t = s.emit (.mailbox p l 0x4300 stOk r) ∧ r.code = 0 ∧
      r.vals[0]? = some (b2n (decide (256 < (s.poisonIn p l dpa len).length))) ∧ r.vals[1]? = some (min 256 (s.poisonIn p l dpa len).length))) ∧
  (∀ (s : State) (p l dpa : Nat), s.ldReach p l = true → s.mgmt.phase ≠ .safe → s.pb.injectOk = false →
    exec (.injectPoison p l dpa) s = .next (s.emit (.mailbox p l 0x4301 stBadDescriptor { code := 3 }))) ∧
  (∀ (s : State) (p l dpa line : Nat) (x : Span), s.ldReach p l = true → s.mgmt.phase ≠ .safe → s.pb.injectOk = true →
    s.dpaLine p l dpa = some (x, line) → dpa % 64 = 0 → x.apt = false → x.rng.regionId = 0 → (s.part x.part).st = 0 → (s.mem.poisonSrc.filter (fun e => e.2 == 2)).length < 64 →
    isLocal (64 * line) = false → s.nearFind (line / 64) = none →
    Completes (.injectPoison p l dpa) s (fun t => setHas t.mem.deepPoison line = true ∧ tabGet 0 t.mem.poisonSrc line = 2 ∧ t.ras.poisoned = s.ras.poisoned)) ∧
  (∀ (s : State) (p l dpa line : Nat) (x : Span) (data : Bytes), s.ldReach p l = true → s.mgmt.phase ≠ .safe →
    s.dpaLine p l dpa = some (x, line) → dpa % 64 = 0 → x.apt = false → s.isSealed x.part x.idx = false → x.rng.regionId = 0 → (s.part x.part).st = 0 →
    (s.nearFind (line / 64)).isSome = true →
    Completes (.clearPoison p l dpa data) s (fun t => t.nearLine line = (slice data 0 64, false) ∧ tabFind t.mem.poisonSrc line = none ∧
      (∀ n, n ≠ line → t.nearLine n = s.nearLine n) ∧ t.mem.deep = s.mem.deep)) ∧
  (∀ (s : State) (p l dpa len : Nat), s.ldReach p l = true → s.mgmt.phase ≠ .safe → dpa % 64 = 0 → len % 64 = 0 → dpa + len ≤ s.ldCap p l →
    (s.part (s.barPart p l)).bg = none →
    exec (.scanMedia p l dpa len) s =
      .next ((s.modPart (s.barPart p l) (fun x => { x with bg := some { kind := 2, ldIdx := ldIdx p l, base := dpa, len := len } })).emit
        (.mailbox p l 0x4304 stOk { code := 1 }))) ∧
  (∀ (s : State) (p l : Nat), s.ldReach p l = true → s.mgmt.phase = .reloading → (s.part (s.barPart p l)).bg = none →
    Completes (.sanitize p l) s (fun t => (∃ b, (t.part (s.barPart p l)).bg = some b ∧ b.kind = 0) ∧
      (∃ j, (t.part (s.barPart p l)).reset = some j ∧ j.newKey = true ∧ j.sanitize = true)) ∧
    Completes (.secureErase p l) s (fun t => (∃ b, (t.part (s.barPart p l)).bg = some b ∧ b.kind = 1) ∧
      (∃ j, (t.part (s.barPart p l)).reset = some j ∧ j.newKey = true))) ∧
  (∀ (s : State) (p l : Nat), s.ldReach p l = true → s.mgmt.phase = .up → NothingUnderWay s (s.barPart p l) → (s.part (s.barPart p l)).bg = none →
    Completes (.sanitize p l) s (fun t => (∃ b, (t.part (s.barPart p l)).bg = some b ∧ b.kind = 0) ∧ (t.part (s.barPart p l)).st = 1 ∧
      (∃ j, (t.part (s.barPart p l)).reset = some j ∧ j.newKey = true ∧ j.sanitize = true ∧ j.mailbox = true)) ∧
    Completes (.secureErase p l) s (fun t => (∃ b, (t.part (s.barPart p l)).bg = some b ∧ b.kind = 1) ∧ (t.part (s.barPart p l)).st = 1 ∧
      (∃ j, (t.part (s.barPart p l)).reset = some j ∧ j.newKey = true ∧ j.sanitize = false ∧ j.mailbox = true))) ∧
  (∀ (s : State) (p l : Nat) (b : BgCmd), s.ldReach p l = true → s.mgmt.phase ≠ .safe → (s.part (s.barPart p l)).bg = some b →
    exec (.sanitize p l) s = .next (s.emit (.mailbox p l 0x4400 stConflict { code := 6 })) ∧
    exec (.secureErase p l) s = .next (s.emit (.mailbox p l 0x4401 stConflict { code := 6 }))) ∧
  (∀ (s : State) (q : Nat) (b : BgCmd), (s.part q).bg = some b → b.kind = 2 →
    Completes (.backgroundCommandDone q []) s (fun t => (t.part q).bg = none ∧
      (t.ld b.ldIdx).scan = ((s.poisonIn (b.ldIdx / 16) (b.ldIdx % 16) b.base b.len).filter (fun x => tabGet 0 s.mem.poisonSrc x.2 == 0)).map (·.1) ∧ OnlyChanges [.host, .parts] s t)) ∧
  (∀ (s : State) (q : Nat) (b : BgCmd), (s.part q).bg = some b → b.kind ≠ 2 → (s.part q).reset = none → (s.part q).st = 3 →
    Completes (.backgroundCommandDone q []) s (fun t => (t.part q).bg = none ∧ (t.part q).st = 0))

/-- Doorbells of a ring (R66, R67, R76), written by a host of the ring's partition while neither is being reset: a tail within the ring's size and a head within what was completed are taken;
others stop the ring with its error; MASK is set; clearing it fires the vector of a completion written while it was set. During a reset of the partition a write of MASK is ignored and counted (R79). -/
def Obligations.RingDoorbells : Prop :=
  (∀ (s : State) (p l q n v : Nat) (r : PbRing), s.ldPart p l = some q → s.pb.ringOf? q n = some r → (s.part q).st = 0 → (s.ring n).st ≠ 3 →
    (v % 65536 + 65536 - (s.ring n).sqHead) % 65536 ≤ 2 ^ r.sqLog2 →
    Completes (.sqTailWrite p l n v) s (fun t => (t.ring n).sqTail = v % 65536 ∧ (t.ring n).sqHead = (s.ring n).sqHead ∧ (t.ring n).st = (s.ring n).st ∧
      (t.ring n).cqHead = (s.ring n).cqHead ∧ OnlyChanges [.disp] s t)) ∧
  (∀ (s : State) (p l q n v : Nat) (r : PbRing), s.ldPart p l = some q → s.pb.ringOf? q n = some r → (s.part q).st = 0 → (s.ring n).st ≠ 3 →
    2 ^ r.sqLog2 < (v % 65536 + 65536 - (s.ring n).sqHead) % 65536 →
    Completes (.sqTailWrite p l n v) s (fun t => (t.ring n).st = 2 ∧ (t.ring n).error = 1 ∧ (t.ring n).sqTail = (s.ring n).sqTail)) ∧
  (∀ (s : State) (p l q n v : Nat) (r : PbRing), s.ldPart p l = some q → s.pb.ringOf? q n = some r → (s.part q).st = 0 → (s.ring n).st ≠ 3 →
    (v % 65536 + 65536 - (s.ring n).cqHead) % 65536 ≤ ((s.ring n).cqTail + 65536 - (s.ring n).cqHead) % 65536 →
    Completes (.cqHeadWrite p l n v) s (fun t => (t.ring n).cqHead = v % 65536 ∧ (t.ring n).sqTail = (s.ring n).sqTail ∧ (t.ring n).st = (s.ring n).st ∧
      OnlyChanges [.disp] s t)) ∧
  (∀ (s : State) (p l q n v : Nat) (r : PbRing), s.ldPart p l = some q → s.pb.ringOf? q n = some r → (s.part q).st = 0 → (s.ring n).st ≠ 3 →
    ((s.ring n).cqTail + 65536 - (s.ring n).cqHead) % 65536 < (v % 65536 + 65536 - (s.ring n).cqHead) % 65536 →
    Completes (.cqHeadWrite p l n v) s (fun t => (t.ring n).st = 2 ∧ (t.ring n).error = 2 ∧ (t.ring n).cqHead = (s.ring n).cqHead)) ∧
  (∀ (s : State) (p l q n v : Nat) (r : PbRing), s.ldPart p l = some q → s.pb.ringOf? q n = some r → (s.part q).st = 0 → v % 2 = 1 →
    exec (.ringIntMaskWrite p l n v) s = .next (s.modRing n (fun x => { x with mask := true }))) ∧
  (∀ (s : State) (p l q n v : Nat) (r : PbRing), s.ldPart p l = some q → s.pb.ringOf? q n = some r → (s.part q).st = 0 → v % 2 = 0 → (s.ring n).mask = true →
    (s.ring n).maskedInt = true → (s.ld r.intLd).msixEnable = true → (s.ld r.intLd).funcMask = false → setHas (s.ld r.intLd).unmasked r.vector = true →
    Completes (.ringIntMaskWrite p l n v) s (fun t => (t.ring n).mask = false ∧ (t.ring n).maskedInt = false ∧ t.outs = .msix r.intLd r.vector none :: s.outs)) ∧
  (∀ (s : State) (p l q n v : Nat) (r : PbRing), s.ldPart p l = some q → s.pb.ringOf? q n = some r → (s.part q).st ≠ 0 →
    exec (.ringIntMaskWrite p l n v) s = .next (s.modPart q (fun x => { x with noPerm := x.noPerm + 1 })))

/-- An LD may access only the doorbell slots of rings owned by its partition (R66): a read of any other slot returns 0; a write to any other slot is ignored and counted in PART_NOPERM.
Offsets 0x20 to 0x3F of every slot are reserved: they read as 0 and ignore writes. -/
def Obligations.DoorbellSlots : Prop :=
  ∀ (s : State) (p l q n : Nat), s.ldPart p l = some q → n < 4096 →
    (∀ off, off < 0x40 → off % 4 = 0 → s.pb.ringOf? q n = none →
      exec (.rcRead ⟨.ld p l, none⟩ (0x02000000 + 64 * n + off) 4 0) s = .next (s.emit (.regValue (.ld p l) (0x02000000 + 64 * n + off) 4 0))) ∧
    (∀ off v, off < 0x40 → off % 4 = 0 → s.pb.ringOf? q n = none →
      exec (.registerWrite ⟨.ld p l, none⟩ (0x02000000 + 64 * n + off) 4 v) s = .next (s.modPart q (fun x => { x with noPerm := x.noPerm + 1 }))) ∧
    (∀ v, s.pb.ringOf? q n = none →
      exec (.sqTailWrite p l n v) s = .next (s.modPart q (fun x => { x with noPerm := x.noPerm + 1 })) ∧
      exec (.cqHeadWrite p l n v) s = .next (s.modPart q (fun x => { x with noPerm := x.noPerm + 1 })) ∧
      exec (.ringReset p l n v) s = .next (s.modPart q (fun x => { x with noPerm := x.noPerm + 1 })) ∧
      exec (.ringIntMaskWrite p l n v) s = .next (s.modPart q (fun x => { x with noPerm := x.noPerm + 1 }))) ∧
    (∀ off v r, 0x20 ≤ off → off < 0x40 → off % 4 = 0 → s.pb.ringOf? q n = some r →
      exec (.rcRead ⟨.ld p l, none⟩ (0x02000000 + 64 * n + off) 4 0) s = .next (s.emit (.regValue (.ld p l) (0x02000000 + 64 * n + off) 4 0)) ∧
      exec (.registerWrite ⟨.ld p l, none⟩ (0x02000000 + 64 * n + off) 4 v) s = .next s)

/-- Descriptors and completions (R68, R73, R75): the fetch from the ring whose turn it is, while no slot is in use, takes its next descriptor into a slot of its own; the completion of an operation that
asks for no interrupt, whose completion slot lies in a resident line of the deep tier, is the 16 bytes of its record in the next completion slot, after which its slot is free; a coalescing time that has
passed fires the vector. -/
def Obligations.DescriptorsAndCompletions : Prop :=
  (∀ (s : State) (r : PbRing), s.dataUp = true → s.disp.ops = [] → s.noteEligible.nextRing = some r →
    Completes .descriptorFetch s (fun t => (t.ring r.ring).sqHead = ((s.ring r.ring).sqHead + 1) % 65536 ∧ (t.ring r.ring).total = (s.ring r.ring).total + 1 ∧
      t.disp.nextOp = s.disp.nextOp + 1 ∧ t.disp.lastRing = r.ring)) ∧
  (∀ (s : State) (o : Op) (r : PbRing) (x : Opd), s.disp.ops = [o] → o.phase = .ended → o.posting = false → o.int = false → s.pb.ring? o.ring = some r →
    s.opd o.part (r.cqBase + 16 * ((s.ring o.ring).cqTail % 2 ^ r.cqLog2)) 16 = .ok x → x.rng.regionId = 0 → x.off % 16 = 0 →
    (s.nearFind (x.line (x.off / 64) / 64)).isSome = true → OwnSlots s → s.gol.sealedRanges = [] →
    Completes (.operationFinish [o.id]) s (fun t => t.disp.ops = [] ∧ (t.ring o.ring).cqTail = ((s.ring o.ring).cqTail + 1) % 65536 ∧
      slice (t.nearLine (x.line (x.off / 64))).1 (x.off % 64) 16 =
        completionBytes o.tag o.seq o.status o.detail o.degraded o.late (phaseBit r.cqLog2 (s.ring o.ring).cqTail) o.result
          (if o.late then min 65535 (o.stall / 1400) else 0))) ∧
  (∀ (s : State) (p l v q n : Nat) (t0 : Nat), s.disp.coal = [{ ldIdx := ldIdx p l, vector := v, count := n, since := t0 }] → s.pb.partOfLd (ldIdx p l) = some q →
    t0 + 1400 * (s.coalCfg q v).2 ≤ s.clk.hmesh → (s.ld (ldIdx p l)).msixEnable = true → (s.ld (ldIdx p l)).funcMask = false →
    setHas (s.ld (ldIdx p l)).unmasked v = true →
    Completes (.coalTimeExpiry p l v) s (fun t => t.disp.coal = [] ∧ t.outs = .msix (ldIdx p l) v none :: s.outs ∧ OnlyChanges [.disp, .outs] s t))

/-- Ring and partition resets. R64: PART_RESET with CONFIRM 0xC0DE and the partition's own number starts a partition reset of a partition that has nothing under way, or joins the one that runs; any other
write is ignored, counted and recorded. R81: a ring under reset reads RESETTING, ignores its pointers' writes and counts them, and leaves reset with its pointers at 0 once no operation of it is left, and
not before. R78, R79: RING_RESET puts a ring without operations into reset, and stops none; at the end of a partition reset that keeps the key, with no operation of the partition left and no block in the near tier, the partition
runs again, its count is one higher, and memory is as it was. -/
def Obligations.RingAndPartitionResets : Prop :=
  (∀ (s : State) (p l q n v : Nat) (r : PbRing), s.ldPart p l = some q → s.pb.ringOf? q n = some r → v % 2 = 1 → (s.part q).st = 0 → (s.ring n).st ≠ 3 →
    s.disp.ops = [] → HostIdle s → OwnSlots s →
    Completes (.ringReset p l n v) s (fun t => (t.ring n).st = 3 ∧ (t.part q).aborts = (s.part q).aborts ∧ t.mgmt.logNext = (s.mgmt.logNext + 1) % 2 ^ 32)) ∧
  (∀ (s : State) (p l q n v : Nat) (r : PbRing), s.ldPart p l = some q → s.pb.ringOf? q n = some r → n < 4096 → (s.ring n).st = 3 →
    exec (.sqTailWrite p l n v) s = .next (s.modPart q (fun x => { x with noPerm := x.noPerm + 1 })) ∧
    exec (.cqHeadWrite p l n v) s = .next (s.modPart q (fun x => { x with noPerm := x.noPerm + 1 })) ∧
    Completes (.rcRead ⟨.ld p l, none⟩ (0x02000010 + 64 * n) 4 0) s (fun t => ∃ w, w % 8 = 3 ∧ t.outs = .regValue (.ld p l) (0x02000010 + 64 * n) 4 w :: s.outs)) ∧
  (∀ (s : State) (n : Nat), (s.ring n).st = 3 →
    (s.ringOps n = 0 → exec (.ringResetEnd n) s = .next (s.modRing n (fun x => { mask := x.mask, maskedInt := x.maskedInt }))) ∧
    (s.ringOps n ≠ 0 → exec (.ringResetEnd n) s = .next s)) ∧
  (∀ (s : State) (p l q v : Nat), s.ldPart p l = some q → s.dataUp = true → v < 2 ^ 32 → v / 65536 = 0xC0DE → v % 64 = q →
    (NothingUnderWay s q → Completes (.partReset p l v) s (fun t => (t.part q).st = 1 ∧
      ∃ j, (t.part q).reset = some j ∧ j.newKey = ((s.pb.part? q).map (·.keyOnReset)).getD false ∧ j.sanitize = false)) ∧
    (∀ j, (s.part q).reset = some j → exec (.partReset p l v) s =
      .next (s.modPart q (fun x => { x with reset := some { j with newKey := j.newKey || ((s.pb.part? q).map (·.keyOnReset)).getD false } })))) ∧
  (∀ (s : State) (p l q v : Nat), s.ldPart p l = some q → v < 2 ^ 32 → (v / 65536 ≠ 0xC0DE ∨ v % 64 ≠ q) →
    Completes (.partReset p l v) s (fun t => t.parts = (s.modPart q (fun x => { x with noPerm := x.noPerm + 1 })).parts ∧
      t.mgmt.logNext = (s.mgmt.logNext + 1) % 2 ^ 32 ∧ OnlyChanges [.parts, .mgmt, .outs, .host] s t)) ∧
  (∀ (s : State) (q : Nat) (j : ResetJob), s.dataUp = true → s.opsOf q = [] → (s.part q).reset = some j → j.newKey = false → j.mailbox = false → s.mem.tags = [] → OwnSlots s →
    Completes (.partitionResetComplete q) s (fun t => (t.part q).st = 0 ∧ (t.part q).reset = none ∧ (t.part q).resetCount = satAdd 0xFFFF (s.part q).resetCount 1 ∧
      t.mem = s.mem))

/-- Staged operations that store data (R157 to R190), at their turn with all operands at hand in local HDM-H ranges: each ends with OK. COUNTERS, FILL and COPY, GEMM, RECIPE, OPTIM,
SIMSEARCH, and GATHER and SCATTER_ADD with CLAMP; none of them changes what the host ports, the cavern, the management processor, the power controller, the security and the wings queues hold. -/
def Obligations.StagedDataOperations : Prop :=
  ∀ (s : State) (id : Nat) (o : Op), Quiet s → LocalOperands s o →
    (∀ a b, Turn s id 0x02 o → s.operand o 0 = some a → s.operand o 1 = some b → Completes (.copy id) s (fun t => Ended t id 0 0 ∧ DataOnly s t)) ∧
    (∀ b, Turn s id 0x03 o → s.operand o 1 = some b → Completes (.fill id) s (fun t => Ended t id 0 0 ∧ DataOnly s t)) ∧
    (Turn s id 0x48 o → Completes (.counters id) s (fun t => Ended t id 0 0 ∧ DataOnly s t)) ∧
    (∀ a b c, Turn s id 0x20 o → s.operand o 0 = some a → s.operand o 1 = some b → s.operand o 2 = some c →
      Completes (.gemm id) s (fun t => Ended t id 0 0 ∧ DataOnly s t)) ∧
    (Turn s id 0x21 o → Completes (.recipe id) s (fun t => Ended t id 0 0 ∧ DataOnly s t)) ∧
    (∀ a, Turn s id 0x22 o → s.operand o 0 = some a → Completes (.optim id) s (fun t => Ended t id 0 0 ∧ DataOnly s t)) ∧
    (∀ a b c, Turn s id 0x30 o → bit o.flags 2 = true → s.operand o 0 = some a → s.operand o 1 = some b → s.operand o 2 = some c →
      Completes (.gather id) s (fun t => Ended t id 0 0 ∧ DataOnly s t)) ∧
    (∀ a b c, Turn s id 0x31 o → bit o.flags 2 = true → s.operand o 0 = some a → s.operand o 1 = some b → s.operand o 2 = some c →
      Completes (.scatterAdd id) s (fun t => Ended t id 0 0 ∧ DataOnly s t)) ∧
    (∀ a b c, Turn s id 0x38 o → s.operand o 0 = some a → s.operand o 1 = some b → s.operand o 2 = some c →
      Completes (.simsearch id) s (fun t => Ended t id 0 0 ∧ DataOnly s t))

/-- NOP, FENCE, PREFETCH and PLACE (R87 to R89, R96, R167, R181) at their turn: NOP and a FENCE that nothing older holds up end with OK and change nothing else; a PREFETCH of no entry drops the partition's
sheet, and one whose entries are resident and pass their checks replaces it by them; a PLACE that asks for no fill gives the pages of its span their hint, and one that evicts leaves no block of its span
in the near tier. -/
def Obligations.StagedControlOperations : Prop :=
  ∀ (s : State) (id : Nat) (o : Op), OwnSlots s →
    (Turn s id 0x00 o → Completes (.nop id) s (fun t => Ended t id 0 0 ∧ OnlyChanges [.disp] s t)) ∧
    (Turn s id 0x01 o → Completes (.fence id) s (fun t => Ended t id 0 0 ∧ OnlyChanges [.disp] s t)) ∧
    (Turn s id 0x19 o → o.fieldAt 24 2 = 0 →
      Completes (.prefetch id) s (fun t => Ended t id 0 0 ∧ (t.part o.part).cue.loaded = false ∧ (t.part o.part).cue.cues = [] ∧
        (t.part o.part).cue.curtain = 0xFFFF)) ∧
    (∀ x cs, Turn s id 0x19 o → o.fieldAt 24 2 ≠ 0 → Quiet s → LocalOperands s o → s.operand o 0 = some x →
      (∀ b ∈ spanBlks x.off x.len, (s.nearFind (x.blk b)).isSome = true) →
      s.readSheet o.part (o.fieldAt 26 2) ((List.range (o.fieldAt 24 2)).map (fun i =>
        (s.opBytes o x (x.off + 32 * i) 32, s.opBad o x (x.off + 32 * i) 32))) = .ok cs → cs ≠ [] →
      Completes (.prefetch id) s (fun t => Ended t id 0 0 ∧ (t.part o.part).cue.loaded = true ∧ (t.part o.part).cue.cues = cs ∧
        (t.part o.part).cue.layerCount = o.fieldAt 26 2)) ∧
    (∀ x, Turn s id 0x18 o → s.operand o 0 = some x → 2 ≤ o.flags % 8 → o.flags % 8 ≤ 3 → bit o.flags 3 = false → x.rng.part = o.part →
      x.rng.maBase % pageBytes = 0 → x.off % pageBytes = 0 → x.len % pageBytes = 0 → x.rng.regionId = 0 →
      Completes (.place id) s (fun t => Ended t id 0 0 ∧ ∀ k, k < x.len → t.hintAt x.rng x.idx (x.off + k) = o.flags % 8)) ∧
    (∀ x, Turn s id 0x18 o → s.operand o 0 = some x → bit o.flags 3 = true →
      Completes (.place id) s (fun t => Ended t id 0 0 ∧
        ∀ y ∈ t.mem.tags, ¬(x.rng.addr x.idx x.off ≤ 4096 * y.blk ∧ 4096 * y.blk < x.rng.addr x.idx x.off + x.len)))

/-- What FILL and COPY store (R165, R166), for a destination that is one whole resident line of a local HDM-H range: FILL its pattern, COPY the bytes of its one resident source line; no other resident
line changes. -/
def Obligations.FillAndCopyStore : Prop :=
  ∀ (s : State) (id : Nat) (o : Op) (b : Opd), Quiet s → LocalOperands s o → s.operand o 1 = some b → b.len = 64 → b.off % 64 = 0 →
    (s.nearFind (b.line (b.off / 64) / 64)).isSome = true →
    (Turn s id 0x03 o →
      Completes (.fill id) s (fun t => t.nearLine (b.line (b.off / 64)) = ((List.range 64).map (fun j => (slice o.desc 32 8)[(o.fieldAt 16 8 + j) % 8]?.getD 0), false) ∧
        ∀ n, n ≠ b.line (b.off / 64) → t.nearLine n = s.nearLine n)) ∧
    (∀ a, Turn s id 0x02 o → s.operand o 0 = some a → a.len = 64 → a.off % 64 = 0 → (s.nearFind (a.line (a.off / 64) / 64)).isSome = true →
      Completes (.copy id) s (fun t => t.nearLine (b.line (b.off / 64)) = ((s.nearLine (a.line (a.off / 64))).1, false) ∧
        ∀ n, n ≠ b.line (b.off / 64) → t.nearLine n = s.nearLine n))

/-- SEAL, its admission, the replacement of one of its blocks, and UNSEAL (R108, R109, R133, R168), at their turn on an HDM-H range of the module's own deep tier, with no table shared: a SEAL
of a range that is not sealed, whose table slots are free, is admitted, makes its range sealed and heads the range's queue; at its turn there it begins its work on every block of the range; the
replacement of a block that awaits no cue and no recovery leaves the other blocks to do; with no block left the SEAL ends with OK and leaves the queue; an UNSEAL of a range that is not sealed
ends with OK and changes the dispatcher and the table slots alone (DEDUCED, log 50); of a sealed one, at its turn, with nothing queued behind it and every block expanding, it ends, and the
range is unsealed and has no block-map entry. -/
def Obligations.SealAndUnseal : Prop :=
  ∀ (s : State) (id : Nat) (o : Op) (r : PbRange), s.pb.range? o.part o.entry = some r → r.regionId = 0 → r.kind = 0 → OwnSlots s →
    (Turn s id 0x10 o → o.sealAdmitted = false → s.slotsShort o r = false → s.isSealed o.part o.entry = false →
      Completes (.sealAdmit id) s (fun t => t.isSealed o.part o.entry = true ∧ t.sealTurn o.part o.entry id = true ∧
        ∃ o', t.op? id = some o' ∧ o'.sealAdmitted = true ∧ o'.phase = .running)) ∧
    (Turn s id 0x10 o → o.sealAdmitted = true → o.stage = 0 → s.sealTurn o.part o.entry id = true →
      Completes (.seal id) s (fun t => ∃ o', t.op? id = some o' ∧ o'.stage = 1 ∧ o'.work = List.range (r.size / 4096) ∧ o'.phase ≠ .ended)) ∧
    (Turn s id 0x10 o → o.sealAdmitted = true → o.stage = 1 → o.work = [] → s.sealTurn o.part o.entry id = true →
      Completes (.seal id) s (fun t => Ended t id 0 0 ∧ t.sealTurn o.part o.entry id = false)) ∧
    (∀ i k rest, Turn s id 0x10 o → o.stage = 1 → o.work = i :: k :: rest → (∀ p, (s.part p).cue.cues = []) → s.mem.cueArea = [] → s.ras.recov = [] →
      (s.ent? (r.addr o.entry (4096 * i) / 4096) = none ∨ ∃ bs, s.plainBlock (r.addr o.entry (4096 * i) / 4096) = .ok bs) →
      Completes (.sealBlockReplace id) s (fun t => ∃ o', t.op? id = some o' ∧ o'.stage = 1 ∧ o'.work = k :: rest ∧ o'.phase ≠ .ended)) ∧
    (Turn s id 0x11 o → s.isSealed o.part o.entry = false →
      Completes (.unseal id) s (fun t => Ended t id 0 0 ∧ OnlyChanges [.disp, .gol] s t)) ∧
    (∀ x, Turn s id 0x11 o → s.gol.sealedRanges = [x] → x.part = o.part → x.range = o.entry → x.queue = [id] → x.keep = [] →
      (∀ p, (s.part p).cue.cues = []) → s.mem.cueArea = [] → s.ras.recov = [] →
      (∀ i, i < r.size / 4096 → s.ent? (r.maBase / 4096 + i) = none ∨ ∃ bs, s.plainBlock (r.maBase / 4096 + i) = .ok bs) →
      Completes (.unseal id) s (fun t => t.isSealed o.part o.entry = false ∧ (∀ i, i < r.size / 4096 → t.ent? (r.maBase / 4096 + i) = none) ∧
        ∃ o', t.op? id = some o' ∧ o'.phase = .ended))

/-- PUBLISH, ACQUIRE and RELEASE (R180, R202, R210 to R213): a PUBLISH whose region has this module as home, with no earlier message of the region waiting there and an unsealed current version
that is its base, reserves a FREE slot, which is then WRITING for it; once the home module has answered its COMMIT with OK, it ends with OK and the low 32 bits of the version as RESULT; once
it has answered an ACQUIRE or a RELEASE with OK, ACQUIRE ends with OK and its pin as the one of its partition on the region, RELEASE with OK and no pin. VOUT lies in this module's deep tier. -/
def Obligations.RegionOperations : Prop :=
  ∀ (s : State) (id : Nat) (o : Op) (g : PbRegion), s.regionOf o = some g → LocalOperands s o →
    (∀ a b k, Turn s id 0x40 o → o.stage = 0 → s.operand o 0 = some a → s.operand o 1 = some b → s.isHome g = true →
      o.fieldAt 40 8 = ((s.region g.rid).current g.nslots).2 → (s.region g.rid).sealedCur = false →
      (s.region g.rid).find g.nslots (fun v => v.st == .free) = some k → k ≠ ((s.region g.rid).current g.nslots).1 →
      s.homeBusy g.rid = false → (s.region g.rid).inq = [] →
      Completes (.publish id) s (fun t => ((t.region g.rid).vs k).st = .writing ∧ ((t.region g.rid).vs k).writer = some (s.pb.moduleId, id, o.part) ∧
        ∃ o', t.op? id = some o' ∧ o'.rgn = g.rid ∧ 1 ≤ o'.stage)) ∧
    (∀ a b k v, Turn s id 0x40 o → o.stage = 5 → s.operand o 0 = some a → s.operand o 1 = some b → o.rsp = some (0, k, v) →
      Completes (.publish id) s (fun t => Ended t id 0 0 ∧ ∃ o', t.op? id = some o' ∧ o'.result = v % 2 ^ 32)) ∧
    (∀ b k v, Turn s id 0x41 o → o.stage = 1 → s.operand o 1 = some b → o.rsp = some (0, k, v) →
      Completes (.acquire id) s (fun t => Ended t id 0 0 ∧ (t.part o.part).pins.filter (fun x => x.rid == g.rid) = [{ rid := g.rid, version := v, slot := k }])) ∧
    (∀ k v, Turn s id 0x42 o → o.stage = 1 → o.rsp = some (0, k, v) →
      Completes (.release id) s (fun t => Ended t id 0 0 ∧ (t.part o.part).pins.filter (fun x => x.rid == g.rid) = []))

/-- REDUCE (R173, R174, R222): an admitted REDUCE of a group in which this module has a rank joins the reduction of its sequence number as the first member and waits for the others; one that has
not started when JOIN_LIMIT milliseconds have passed since its checks ends ABORTED with detail 29. -/
def Obligations.ReduceJoins : Prop :=
  (∀ (s : State) (id k : Nat) (o : Op) (g : PbGroup) (a b : Opd), Turn s id 0x28 o → o.stage = 0 → s.pb.group? o.rGroup = some g → s.operand o 0 = some a →
    s.operand o 1 = some b → s.rankIn g = some k → s.redn? g.group o.rSeq = none → 2 ≤ g.members.length →
    Completes (.reduce id) s (fun t => ∃ r, t.redn? g.group o.rSeq = some r ∧ r.op = some id ∧ r.joined = [(k, o.flags, o.fieldAt 32 4)])) ∧
  (∀ (s : State) (id : Nat) (o : Op) (g : PbGroup), s.op? id = some o → o.opcode = 0x28 → o.phase ≠ .ended → o.checked = true → o.stage = 0 →
    s.pb.group? o.rGroup = some g → o.checkedAt + 1400000 * g.joinLimit ≤ s.clk.hmesh →
    Completes (.joinTimeout id) s (fun t => Ended t id 1 29))

/-- Tier hints and evictions (R87, R88, R90, Table 4-2): a hint written for a range of the writer's partition that is not being evicted reads back; EVICT of such a range begins an eviction that
holds its hint, and the eviction's end clears it and sets the hint.
R90: a write with n at or beyond RANGE_COUNT or a reserved HINT is ignored and counted in TIER_BAD_WRITES; a read with n at or beyond RANGE_COUNT returns 0; a write with EVICT while one
runs joins it, and its hint is the one that is applied after it. -/
def Obligations.TierRegisters : Prop :=
  (∀ (s : State) (p l q n v : Nat) (r : PbRange), s.ldPart p l = some q → s.pb.range? q n = some r → v < 4 → tabFind (s.part q).evicting n = none →
    Completes (.tierHintWrite p l n v) s (fun t => tabFind (t.part q).hintReg n = some v)) ∧
  (∀ (s : State) (p l q n v : Nat), s.ldPart p l = some q → ((s.pb.rangesOf q).length ≤ n ∨ 4 ≤ v % 8) →
    exec (.tierHintWrite p l n v) s = .next (s.modPart q (fun x => { x with badWrites := x.badWrites + 1 })) ∧
    exec (.evict p l n v) s = .next (s.modPart q (fun x => { x with badWrites := x.badWrites + 1 }))) ∧
  (∀ (s : State) (p l q n : Nat), s.ldPart p l = some q → n < 256 → s.pb.range? q n = none →
    exec (.rcRead ⟨.ld p l, none⟩ (0x03001000 + 4 * n) 4 0) s = .next (s.emit (.regValue (.ld p l) (0x03001000 + 4 * n) 4 0))) ∧
  (∀ (s : State) (p l q n v : Nat) (r : PbRange), s.ldPart p l = some q → s.pb.range? q n = some r → v < 4 → tabFind (s.part q).evicting n = none →
    Completes (.evict p l n v) s (fun t => tabFind (t.part q).evicting n = some (some v))) ∧
  (∀ (s : State) (p l q n v : Nat) (r : PbRange) (h : Option Nat), s.ldPart p l = some q → s.pb.range? q n = some r → v < 4 → tabFind (s.part q).evicting n = some h →
    exec (.evict p l n v) s = .next (s.modPart q (fun x => { x with evicting := tabSet x.evicting n (some v), evictPlaced := tabDel x.evictPlaced n }))) ∧
  (∀ (s : State) (q n h : Nat) (r : PbRange), s.pb.range? q n = some r → tabFind (s.part q).evicting n = some (some h) →
    Completes (.evictDone q n) s (fun t => tabFind (t.part q).evicting n = none ∧ tabFind (t.part q).hintReg n = some h))

/-- Cue registers (R12, R97 to R99, Tables 4-6 to 4-9): a CUE_CURTAIN write with no sheet loaded is counted and ignored, a layer of the loaded sheet becomes the curtain; a lower half of CUE_SELECT
is held for its requester and nothing else changes; a final selection of an open group is remembered; CUE_WEIGHT for a sheet without cues is counted and ignored, and of a sheet of one
alternative that is neither promoted nor done it sets that alternative's weight. -/
def Obligations.CueRegisters : Prop :=
  (∀ (s : State) (p l q v : Nat), s.ldPart p l = some q → (s.part q).cue.loaded = false →
    exec (.cueCurtain p l v) s = .next (s.modPart q (fun x => { x with badWrites := x.badWrites + 1 }))) ∧
  (∀ (s : State) (p l q v : Nat), s.ldPart p l = some q → (s.part q).cue.loaded = true → v < (s.part q).cue.layerCount → v < 65536 →
    Completes (.cueCurtain p l v) s (fun t => (t.part q).cue.curtain = v ∧ (t.part q).badWrites = (s.part q).badWrites)) ∧
  (∀ (s : State) (p l q v : Nat), s.ldPart p l = some q → v < 2 ^ 32 →
    Completes (.cueSelect p l (.lower v)) s (fun t => t.heldHalf (.ld p l) cueSelectAddr = some v ∧ OnlyChanges [.host] s t)) ∧
  (∀ (s : State) (p l q v : Nat), s.ldPart p l = some q → (s.part q).cue.groupOpen (v / 2 ^ 48 % 2 ^ 16) (v / 2 ^ 40 % 256) = true → v / 2 ^ 32 % 2 = 1 →
    (v / 2 ^ 48 % 2 ^ 16, v / 2 ^ 40 % 256) ∉ (s.part q).cue.finals → v < 2 ^ 64 →
    Completes (.cueSelect p l (.full v)) s (fun t => (v / 2 ^ 48 % 2 ^ 16, v / 2 ^ 40 % 256) ∈ (t.part q).cue.finals ∧
      (t.part q).badWrites = (s.part q).badWrites)) ∧
  (∀ (s : State) (p l q v : Nat), s.ldPart p l = some q → (s.part q).cue.cues = [] →
    Completes (.cueWeight p l (.full v)) s (fun t => (t.part q).badWrites = (s.part q).badWrites + 1 ∧ (t.part q).cue = (s.part q).cue)) ∧
  (∀ (s : State) (p l q v : Nat) (c : Cue), s.ldPart p l = some q → (s.part q).cue.cues = [c] → c.layer = v / 2 ^ 48 % 2 ^ 16 → c.group = v / 2 ^ 40 % 256 →
    c.group ≠ 0 → c.promoted = false → c.st ≠ .done → v < 2 ^ 64 →
    Completes (.cueWeight p l (.full v)) s (fun t => ((t.part q).cue.cues.map (·.weight)) = [v % 16] ∧ (t.part q).badWrites = (s.part q).badWrites))

/-- The cue runner (R100 to R105): CUE_BLOCK_ISSUE takes its turn at the one sheet that has a block ready and is not held back, issues the next block of its cue that comes first, which awaits the
block, and notes the partition. CUE_BLOCK_FILL of the one block that a sheet's only cue awaits places it: of a block that is resident by then, and of an uncoded block outside the near
tier, read without error, whose pair grants the read. -/
def Obligations.CueRunner : Prop :=
  (∀ (s : State) (p i : Nat) (held : List Nat) (c : Cue) (r : PbRange) (idx off : Nat), s.dataUp = true → p < 64 → p ∉ held → s.nextCue p = some (i, c) →
    (∀ q, q ≠ p → q ∈ held ∨ s.nextCue q = none) → (s.part p).cue.cues[i]? = some c → s.cueAddr p c c.issued = some (r, idx, off) → r.regionId = 0 →
    s.cueMay p c r idx off = true → s.nearFind (r.addr idx off / 4096) = none →
    Completes (.cueBlockIssue held) s (fun t => t.mem.cueTurn = p ∧ ∃ c', (t.part p).cue.cues[i]? = some c' ∧ c'.issued = c.issued + 1 ∧ c.issued ∈ c'.out)) ∧
  (∀ (s : State) (p k : Nat) (errs : List SymErr) (c : Cue) (r : PbRange) (idx off : Nat), s.dataUp = true → (s.part p).cue.cues = [c] →
    s.cueAddr p c k = some (r, idx, off) → r.regionId = 0 → c.out = [k] → k < c.blocks → c.buffer = false → (s.nearFind (r.addr idx off / 4096)).isSome = true →
    r.maBase % 4096 = 0 → c.addr % 4096 = 0 →
    Completes (.cueBlockFill p 0 k errs) s (fun t => ∃ c', (t.part p).cue.cues[0]? = some c' ∧ c'.out = [] ∧ k ∈ c'.placed)) ∧
  (∀ (s : State) (p k blk : Nat) (c : Cue) (r : PbRange) (idx off : Nat), s.dataUp = true → (s.part p).cue.cues = [c] → s.cueAddr p c k = some (r, idx, off) →
    r.regionId = 0 → r.kind ≠ 1 → c.out = [k] → k < c.blocks → c.buffer = false → r.maBase % 4096 = 0 → c.addr % 4096 = 0 → r.addr idx off / 4096 = blk →
    s.nearFind blk = none → s.ent? blk = none → s.ras.recov = [] → s.deepStopped blk (actCue p) 4096 = false →
    s.deepTurn { line := 64 * blk, act := actCue p, rd := true } = true →
    Completes (.cueBlockFill p 0 k []) s (fun t => ∃ c', (t.part p).cue.cues[0]? = some c' ∧ c'.out = [] ∧ k ∈ c'.placed))

/-- The receive checks 1 to 8 of Table 10-7 (R224, R239), for a PING frame at a port in service while nothing else at the hub die waits for a frame: a frame that is too long, fails its FCS or has
another VLAN ID than the port's, is no Coldon packet to the port, has a bad header or another module's ID, is unencrypted, fails its tag or replays a TXC is counted in the counter of that check
and changes nothing else; a frame of no session, from an address that has had no NAK yet, is counted and answered with NAK. -/
def Obligations.ReceiveChecks : Prop :=
  ∀ (s : State) (f : Frame) (c : Nat), s.dataUp = true → (s.cport f.port).up = true → ColdonIdle s →
    (9216 < f.frameLen → exec (.ping f c) s = .next (s.modCport f.port (fun p => { p with oversize := p.oversize + 1 }))) ∧
    ∀ k, s.pb.cldPorts.find? (fun x => x.port == f.port) = some k → f.frameLen ≤ 9216 →
    (f.fcsOk = false ∨ (∃ v, f.vlan = some v ∧ v ≠ k.vlan) → exec (.ping f c) s = .next (s.modCport f.port (fun p => { p with macErr := p.macErr + 1 }))) ∧
    (f.fcsOk = true → (∀ v, f.vlan = some v → v = k.vlan) →
      (f.udp = false ∨ f.dstIp ≠ k.ip ∨ f.udpPort ≠ s.pb.udpPort ∨ f.sumOk = false →
        exec (.ping f c) s = .next (s.modCport f.port (fun p => { p with rxOther := p.rxOther + 1 }))) ∧
      (f.udp = true → f.dstIp = k.ip → f.udpPort = s.pb.udpPort → f.sumOk = true →
        (f.headOk = false ∨ f.dst ≠ s.pb.moduleId → exec (.ping f c) s = .next (s.modCport f.port (fun p => { p with hchkFail := p.hchkFail + 1 }))) ∧
        (f.headOk = true → f.dst = s.pb.moduleId → f.typ ≠ 1 → f.typ ≠ 2 → f.typ ≠ 3 → f.typ ≠ 8 →
          (f.enc = false → exec (.ping f c) s = .next (s.modCport f.port (fun p => { p with unknown := p.unknown + 1 }))) ∧
          (f.enc = true → (∀ x ∈ s.cld.sessions, x.lsid = f.session → x.peer ≠ f.src) → tabFind s.cld.nakAt f.srcIp = none → (s.cport f.port).paused = false →
            Completes (.ping f c) s (fun t => (t.cport f.port).unknown = (s.cport f.port).unknown + 1 ∧
              (∃ w, t.outs = .frame f.port f.srcIp 0 none 0 false 0 0 false (.nak f.session s.pb.moduleId 1) w :: s.outs) ∧ OnlyChanges [.cld, .outs] s t)) ∧
          (∀ x, f.enc = true → s.cld.sessions.find? (fun x => x.lsid == f.session && x.peer == f.src) = some x →
            (f.tagOk x.rxKey (.ping c) = false → exec (.ping f c) s = .next (s.modCport f.port (fun p => { p with gcmFail := p.gcmFail + 1 }))) ∧
            (f.tagOk x.rxKey (.ping c) = true → setHas x.rxSeen f.txc = true →
              exec (.ping f c) s = .next (s.modCport f.port (fun p => { p with replay := p.replay + 1 })))))))

/-- Opening a session (R201, R230, R231, R233, R238): a HELLO of a permitted peer of lower ID whose key and signature pass is answered with HELLO_RSP and a half-open session, whose keys are those
that R233 derives; one that does not pass is dropped, and one with this module's own ID is recorded. A HELLO_RSP to the one half-open initiator establishes the session with its derived keys and
sends FINISH, and a FINISH establishes the one half-open responder's, where no region is affected by the peer's return; a HELLO_RSP that does not pass is dropped. A NAK of the one session sends PING.
When HELLO_RETRY has passed the initiator sends the same HELLO again, a permitted peer of higher ID without a session gets a first one, and a responder drops its half-open state. -/
def Obligations.SessionsOpen : Prop :=
  (∀ (s r : State) (f : Frame) (b : HelloBody), s.dataUp = true → (s.cport f.port).up = true → s.receive f (.hello b) = { s := r, msgs := [.hello b] } → HostIdle r →
    (r.idTaken b = false → b.moduleId < r.pb.moduleId → r.helloOk b b.head = true → (r.cport f.port).paused = false → Completes (.hello f b) s (fun t =>
      ∃ a w h k, t.outs = .frame f.port f.srcIp 0 none 0 false 0 0 false (.helloRsp a) w :: r.outs ∧ h ∈ t.cld.half ∧ h.peer = b.moduleId ∧ h.responder = true ∧
        h.psid = b.lsid ∧ h.lsid = a.lsid ∧ h.port = f.port ∧ h.dst = f.srcIp ∧ a.eph = ecPublic k ∧ (h.rxKey, h.txKey) = sessionKeys k b.eph b.nonce a.nonce ∧
        t.cld.sessions = r.cld.sessions)) ∧
    (r.idTaken b = false → r.helloOk b b.head = false → exec (.hello f b) s = .next r) ∧
    (b.moduleId = r.pb.moduleId → Completes (.hello f b) s (fun t => t.mgmt.logNext = (r.mgmt.logNext + 1) % 2 ^ 32 ∧ t.cld.half = r.cld.half ∧ t.cld.sessions = r.cld.sessions))) ∧
  (∀ (s r : State) (f : Frame) (b mine : HelloBody) (h : HalfOpen), s.dataUp = true → (s.cport f.port).up = true →
    s.receive f (.helloRsp b) = { s := r, msgs := [.helloRsp b] } → HostIdle r → r.cld.half = [h] → h.peer = b.moduleId → h.responder = false → h.hello = some mine →
    b.moduleId ≠ r.pb.moduleId → r.sess? b.moduleId = none →
    (r.helloOk b (mine.bytes ++ b.head) = true → r.cav.remote = [] → r.cld.resetPeers.contains b.moduleId = false → (r.cport ((r.sendPort).getD h.port)).paused = false →
      (∀ g ∈ r.pb.regions, r.isHome g = false ∧ (r.region g.rid).lostMembers.contains b.moduleId = false ∧ (r.region g.rid).unitsStale = false ∧ (r.region g.rid).cutOff = false) →
      Completes (.helloRsp f b) s (fun t => ∃ y w, t.sess? b.moduleId = some y ∧ y.lsid = h.lsid ∧ y.psid = b.lsid ∧
        (y.txKey, y.rxKey) = sessionKeys h.eph b.eph mine.nonce b.nonce ∧ y.dst = r.peerAddr b.moduleId ((r.sendPort).getD h.port) ∧ y.txc = 1 ∧ t.cld.half = [] ∧
        .frame y.port y.dst b.lsid none 0 false 0 0 false .finish w ∈ t.outs)) ∧
    (r.helloOk b (mine.bytes ++ b.head) = false → exec (.helloRsp f b) s = .next r)) ∧
  (∀ (s r : State) (f : Frame) (h : HalfOpen), s.dataUp = true → (s.cport f.port).up = true →
    s.receive f .finish = { s := r, msgs := [.finish] } → HostIdle r → s.cld.half = [h] → r.cld.half = [h] → h.peer = f.src → h.responder = true → h.lsid = f.session →
    r.cav.remote = [] → r.sess? f.src = none → r.cld.resetPeers.contains f.src = false →
    (∀ g ∈ r.pb.regions, r.isHome g = false ∧ (r.region g.rid).lostMembers.contains f.src = false ∧ (r.region g.rid).unitsStale = false ∧ (r.region g.rid).cutOff = false) →
    Completes (.coldonFinish f) s (fun t => (∃ y, t.sess? f.src = some y ∧ y.lsid = h.lsid ∧ y.psid = h.psid ∧ y.txKey = h.txKey ∧ y.rxKey = h.rxKey ∧ y.dst = f.srcIp ∧
      y.rxHigh = some f.txc) ∧ t.cld.half = [])) ∧
  (∀ (s r : State) (f : Frame) (sid m reason : Nat) (x : Sess), s.dataUp = true → (s.cport f.port).up = true →
    s.receive f (.nak sid m reason) = { s := r, msgs := [.nak sid m reason] } → HostIdle r → r.cld.sessions = [x] → x.psid = sid → x.peer = m →
    (r.cport x.port).paused = false → Completes (.nak f sid m reason) s (fun t => ∃ c, Sent r t x none false (.ping c))) ∧
  (∀ (s : State) (h : HalfOpen) (b : HelloBody) (p : Nat), s.dataUp = true → s.cld.half = [h] → h.hello = some b → s.sendPort = some p → (s.cport p).paused = false →
    h.since + peerNs (1000 * s.pb.helloRetryUs) ≤ s.peerClock h.port →
    Completes (.helloRetryExpiry h.peer) s (fun t => t.cld.half = [{ h with since := s.peerClock p, port := p, dst := s.peerAddr h.peer p }] ∧
      ∃ w, t.outs = .frame p (s.peerAddr h.peer p) 0 none 0 false 0 0 false (.hello b) w :: s.outs)) ∧
  (∀ (s : State) (peer p : Nat), s.dataUp = true → s.cld.half = [] → (s.pb.peer? peer).isSome = true → s.pb.moduleId < peer → s.sess? peer = none → s.sendPort = some p →
    (s.cport p).paused = false → Completes (.helloRetryExpiry peer) s (fun t => ∃ h b w, t.cld.half = [h] ∧ h.peer = peer ∧ h.responder = false ∧ h.hello = some b ∧
      b.lsid = h.lsid ∧ b.moduleId = s.pb.moduleId ∧ t.outs = .frame p (s.peerAddr peer p) 0 none 0 false 0 0 false (.hello b) w :: s.outs)) ∧
  (∀ (s : State) (h : HalfOpen), s.dataUp = true → s.cld.half = [h] → h.hello = none → h.since + peerNs (1000 * s.pb.helloRetryUs) ≤ s.peerClock h.port →
    exec (.helloRetryExpiry h.peer) s = .next { s with cld := { s.cld with half := [] } })

/-- Messages that keep a session (R219, R232, R234, R235, R238): ACK takes what it covers off the outstanding messages and leaves nothing more to do; PING is answered with PONG; PONG changes nothing
beyond the receipt of its frame; CLOSE ends the session, records it, and remembers a reset of the peer, where the session carries no request. -/
def Obligations.SessionMessages : Prop :=
  ∀ (s r : State) (f : Frame) (x : Sess),
    (∀ blocks y, Arrives s f (.ack blocks) r x → s.cld.sessions = [y] → y.peer = f.src → y.sendq = [] → f.ackv = true → f.ack = (y.peerAck + 1) % 2 ^ 32 → y.peerAck < y.sndNxt →
      exec (.ack f blocks) s = .next r ∧ x.peerAck = y.peerAck + 1 ∧ ∀ o ∈ x.outst, x.peerAck ≤ o.seq) ∧
    (∀ c, Arrives s f (.ping c) r x → (r.cport x.port).paused = false → Completes (.ping f c) s (fun t => Sent r t x none false (.pong c))) ∧
    (∀ c, Arrives s f (.pong c) r x → exec (.pong f c) s = .next r) ∧
    (∀ reason, Arrives s f (.close reason) r x → r.cav.remote = [] → r.cav.redns = [] → OwnSlots r →
      Completes (.close f reason) s (fun t => t.sess? f.src = none ∧ t.mgmt.logNext = (r.mgmt.logNext + 1) % 2 ^ 32 ∧
        t.cld.resetPeers.contains f.src = decide (reason = 1)))

/-- Session timers (R232, R234, R235, R237, R238), of the module's one session with its port not paused: a message whose timer has run out is sent again with a doubled timer, to the same address after
an even number of expiries in a row; the ACK delay sends ACK with the selective blocks; the idle limit sends PING; the liveness limit ends the session with its peer unreachable, where no request
and no region depends on it. -/
def Obligations.SessionTimers : Prop :=
  ∀ (s : State) (x : Sess), s.cld.sessions = [x] → (s.cport x.port).paused = false →
    (∀ o, x.outst = [o] → o.sacked = false → o.sentAt + peerNs o.rtoNs ≤ s.peerClock x.port →
      Completes (.rtoExpiry x.peer o.seq) s (fun t => ∃ y p, t.sess? x.peer = some y ∧ y.outst = [p] ∧ p.seq = o.seq ∧ p.msg = o.msg ∧ p.expiries = o.expiries + 1 ∧
        p.rtoNs = min (2 * o.rtoNs) s.pb.rtoMaxNs ∧ (o.expiries % 2 = 0 → y.dst = x.dst) ∧ Sent s t { x with dst := y.dst } (some (o.seq % 2 ^ 32)) true o.msg)) ∧
    (∀ t0, x.ackSince = some t0 → t0 + peerNs s.pb.ackDelayNs ≤ s.peerClock x.port →
      Completes (.ackDelayExpiry x.peer) s (fun t => (∃ y, t.sess? x.peer = some y ∧ y.ackSince = none ∧ y.unacked = 0) ∧
        Sent s t x none false (.ack ((ackBlocks (x.reorder.map (·.1))).map (fun b => (b.1 % 2 ^ 32, b.2 % 2 ^ 32)))))) ∧
    (x.lastRx + peerNs (1000 * s.pb.idlePingUs) ≤ s.peerClock x.port → x.lastPing + peerNs (1000 * s.pb.idlePingUs) ≤ s.peerClock x.port →
      Completes (.idlePingExpiry x.peer) s (fun t => (∃ y, t.sess? x.peer = some y ∧ y.lastPing = s.peerClock x.port) ∧ ∃ c, Sent s t x none false (.ping c))) ∧
    (x.lastRx + peerNs (1000 * s.pb.livenessUs) ≤ s.peerClock x.port → s.cav.remote = [] → s.cav.redns = [] → OwnSlots s →
      (∀ g ∈ s.pb.regions, g.members.contains x.peer = false ∧ s.isHome g = false) → HostIdle s →
      Completes (.livenessLimitExpiry x.peer) s (fun t => t.cld.sessions = [] ∧ t.cld.unreachable.contains x.peer = true ∧
        (t.cport x.port).peerLost = (s.cport x.port).peerLost + 1))

/-- A holder serves its lines (R205 to R207), of a region that is up to date here, while no block of the module is coded or awaits a recovery: a READ that its pair grants is answered with the lines and
their poison marks, and without an allocating HOLDER_HINT moves no data; a WRITE and an ADD of one line of a NONE or MIRROR region store it and add to it, a DELTA of one line is XORed into
it, and each is acknowledged. The WRITE and the DELTA are stated of a line that is resident, the ADD of one that is not. -/
def Obligations.HolderServes : Prop :=
  ∀ (s r : State) (f : Frame) (x : Sess) (g : PbRegion) (ca rid tag dg : Nat),
    (∀ lines pre q v, Arrives s f (.read ca rid tag dg lines pre false) r x → ServesPlain r rid dg ca lines g →
      r.shareStopped (r.shareBase + ca % 2 ^ 44) lines actColdon = false → r.holderRead (r.shareBase + ca % 2 ^ 44) lines = .ok v →
      Completes (.read f ca rid tag dg lines pre false q) s (fun t => OnWay t f.src (.readRsp tag 0 v.2 0 v.1) ∧ t.cav.served = r.cav.served + lines ∧
        ((∀ y ∈ r.pb.regions, y.holderHint ≠ 0) → t.mem.deep = r.mem.deep ∧ t.mem.near = r.mem.near))) ∧
    (∀ p d, Arrives s f (.write ca rid tag dg 1 p d) r x → ServesPlain r rid dg ca 1 g → g.n = 0 → (r.shareBase + ca % 2 ^ 44) % 64 = 0 →
      (r.nearFind ((r.shareBase + ca % 2 ^ 44) / 4096)).isSome = true →
      Completes (.write f ca rid tag dg 1 p d) s (fun t => OnWay t f.src (.writeAck tag 0) ∧
        t.nearLine ((r.shareBase + ca % 2 ^ 44) / 64) = (slice d 0 64, bit p 0) ∧ t.mem.deep = r.mem.deep ∧
        ∀ n, n ≠ (r.shareBase + ca % 2 ^ 44) / 64 → t.nearLine n = r.nearLine n)) ∧
    (∀ af tf p d, Arrives s f (.add ca rid tag dg 1 af tf p d) r x → ServesPlain r rid dg ca 1 g → g.n = 0 → (r.shareBase + ca % 2 ^ 44) % 64 = 0 →
      r.nearFind ((r.shareBase + ca % 2 ^ 44) / 4096) = none →
      Completes (.add f ca rid tag dg 1 af tf p d) s (fun t => OnWay t f.src (.writeAck tag 0) ∧
        t.lineAt ((r.shareBase + ca % 2 ^ 44) / 64) = (MergeOp.add tf af (slice d 0 64) (bit p 0)).apply (r.lineAt ((r.shareBase + ca % 2 ^ 44) / 64)))) ∧
    (∀ p d, Arrives s f (.delta ca rid tag dg 1 p d) r x → ServesPlain r rid dg ca 1 g → (r.shareBase + ca % 2 ^ 44) % 64 = 0 →
      (r.nearFind ((r.shareBase + ca % 2 ^ 44) / 4096)).isSome = true →
      Completes (.delta f ca rid tag dg 1 p d) s (fun t => OnWay t f.src (.writeAck tag 0) ∧
        t.nearLine ((r.shareBase + ca % 2 ^ 44) / 64) = (slice (xorBytes (r.nearLine ((r.shareBase + ca % 2 ^ 44) / 64)).1 (slice d 0 64)) 0 64,
          (r.nearLine ((r.shareBase + ca % 2 ^ 44) / 64)).2 || bit p 0)))

/-- Answers reach who waits for them (R206, R216, R228, Table 10-5), where the answer is the one that the module's one access waits for: READ_RSP gives the operation that reads one line the line and its
status, WRITE_ACK counts a write of its operation as done, REGION_RSP of the epoch known here, but STALE_EPOCH, gives its operation the home's answer, TABLE_RSP with OK fills the slot it imports. -/
def Obligations.AnswersArrive : Prop :=
  ∀ (s r : State) (f : Frame) (x : Sess) (tag : Nat) (a : CvnAcc) (o : Op),
    (∀ st p e d line, Arrives s f (.readRsp tag st p e d) r x → Awaits r f.src tag a o → a.who = .opRd o.id line → a.what = .rd 1 false false →
      Completes (.readRsp f tag st p e d) s (fun t => t.cav.remote = [] ∧ t.cav.accs = [] ∧ ∃ o', t.op? o.id = some o' ∧
        tabFind o'.got line = some (slice d 0 64, bit p 0) ∧ (st ≠ 0 → o.cvnBad = 0 → o'.cvnBad = st))) ∧
    (∀ st, Arrives s f (.writeAck tag st) r x → Awaits r f.src tag a o → a.who = .opWr o.id → (∃ d p, a.what = .wr d p) →
      Completes (.writeAck f tag st) s (fun t => t.cav.remote = [] ∧ t.cav.accs = [] ∧ ∃ o', t.op? o.id = some o' ∧ o'.left = o.left - 1)) ∧
    (∀ st k e v, Arrives s f (.regionRsp tag st k e v) r x → Awaits r f.src tag a o → a.who = .op o.id → a.what = .msg → e = (r.region a.rid).epoch →
      st ≠ 3 →
      Completes (.regionRsp f tag st k e v) s (fun t => t.cav.remote = [] ∧ t.cav.accs = [] ∧ ∃ o', t.op? o.id = some o' ∧ o'.rsp = some (st, k, v))) ∧
    (∀ k gen fmt lens n, Arrives s f (.tableRsp tag 0 k gen fmt lens) r x → Awaits r f.src tag a o → a.who = .table n → a.what = .msg →
      Completes (.tableRsp f tag 0 k gen fmt lens) s (fun t => t.cav.remote = [] ∧ t.cav.accs = [] ∧ t.slot n = { r.slot n with st := 2, fmt := fmt, lens := lens } ∧
        t.cav.tableImports = r.cav.tableImports + 1))

/-- A home serves its region (R210 to R215) when its ALT_HOME is unreachable and nothing of the region waits: RESERVE on the current version, unsealed, takes a FREE slot with a base pin on the
current one; COMMIT makes the written slot the current version; ABANDON frees it; ACQUIRE pins a version; RELEASE takes the pin off; each answers OK. -/
def Obligations.HomeServes : Prop :=
  ∀ (s r : State) (f : Frame) (x : Sess) (g : PbRegion) (rid tag dg part : Nat),
    (∀ k, Arrives s f (.reserve rid tag dg ((r.region rid).current g.nslots).2 part) r x → HomeAlone r rid dg g → (r.region rid).sealedCur = false →
      (r.region rid).find g.nslots (fun v => v.st == .free) = some k → k ≠ ((r.region rid).current g.nslots).1 →
      Completes (.reserve f rid tag dg ((r.region rid).current g.nslots).2 part) s (fun t =>
        OnWay t f.src (.regionRsp tag 0 k (r.region rid).epoch ((r.region rid).current g.nslots).2) ∧
        ((t.region rid).vs k).st = .writing ∧ ((t.region rid).vs k).writer = some (f.src, tag, part) ∧
        ((t.region rid).vs ((r.region rid).current g.nslots).1).basePins = ((r.region rid).vs ((r.region rid).current g.nslots).1).basePins + 1)) ∧
    (∀ k c base, Arrives s f (.commit rid tag dg base part k) r x → HomeAlone r rid dg g → (r.region rid).current g.nslots = c →
      ((r.region rid).vs c.1).st = .current → ((r.region rid).vs k).writtenBy f.src part = true → base = c.2 →
      Completes (.commit f rid tag dg base part k) s (fun t => OnWay t f.src (.regionRsp tag 0 k (r.region rid).epoch (c.2 + 1)) ∧
        ((t.region rid).vs k).st = .current ∧ ((t.region rid).vs k).version = c.2 + 1 ∧ ((t.region rid).vs c.1).st ≠ .current)) ∧
    (∀ k, Arrives s f (.abandon rid tag dg part k) r x → HomeAlone r rid dg g → ((r.region rid).vs k).writtenBy f.src part = true →
      Completes (.abandon f rid tag dg part k) s (fun t => OnWay t f.src (.regionRsp tag 0 k (r.region rid).epoch ((r.region rid).current g.nslots).2) ∧
        (t.region rid).vs k = {})) ∧
    (∀ v k, Arrives s f (.acquire rid tag dg v part) r x → HomeAlone r rid dg g →
      (if v = 0 then some ((r.region rid).current g.nslots).1 else (r.region rid).slotOf g.nslots v) = some k →
      Completes (.coldonAcquire f rid tag dg v part) s (fun t => OnWay t f.src (.regionRsp tag 0 k (r.region rid).epoch ((r.region rid).vs k).version) ∧
        ((t.region rid).vs k).pins.contains (f.src, part) = true)) ∧
    (∀ k, Arrives s f (.release rid tag dg part) r x → HomeAlone r rid dg g →
      (List.range g.nslots).find? (fun j => ((r.region rid).vs j).pins.contains (f.src, part)) = some k →
      Completes (.coldonRelease f rid tag dg part) s (fun t => OnWay t f.src (.regionRsp tag 0 0 (r.region rid).epoch ((r.region rid).vs k).version) ∧
        ((t.region rid).vs k).pins.contains (f.src, part) = false))

/-- Members of a region (R211, R216 to R218): FILL gives each row of the new slot the base's bytes, but one that lies wholly inside the span of a NONE or MIRROR region, and touches no others;
MIRROR at ALT_HOME keeps the home's change; PROMOTE of a higher epoch moves the home; TABLE_FETCH answers a table of a slot that is in use and notes its importer, with TABLE_DROP after
it when the slot has left LIVE; TABLE_RELEASE takes the importer off; TABLE_DROP ends the use of the one imported table. -/
def Obligations.MembersFollow : Prop :=
  ∀ (s r : State) (f : Frame) (x : Sess) (g : PbRegion) (rid tag dg : Nat),
    (∀ b n o l, Arrives s f (.fill rid tag dg b n o l) r x → r.pb.region? rid = some g → g.digest = dg → r.mem.tags = [] → r.mem.merge = [] → Memory.wf r.mem.deep = true →
      Completes (.coldonFill f rid tag dg b n o l) s (fun t => OnWay t f.src (.writeAck tag 0) ∧
        (∀ row, row < g.per / unitBytes → memBytes t.mem.deep (r.shareBase + g.offset n row 0) unitBytes =
          if g.mode ≤ 1 ∧ o ≤ g.unitOf ((r.memberIdx g).getD 0, row) * unitBytes ∧ (g.unitOf ((r.memberIdx g).getD 0, row) + 1) * unitBytes ≤ o + l
          then memBytes r.mem.deep (r.shareBase + g.offset n row 0) unitBytes else memBytes r.mem.deep (r.shareBase + g.offset b row 0) unitBytes) ∧
        ∀ a, (a < r.shareBase + g.offset n 0 0 ∨ r.shareBase + g.offset n 0 0 + g.per ≤ a) → memRead t.mem.deep a = memRead r.mem.deep a)) ∧
    (∀ e ch k m part st v, Arrives s f (.mirror rid tag e ch k m part st v) r x → r.pb.region? rid = some g → g.altHome = r.pb.moduleId → (r.region rid).epoch ≤ e →
      Completes (.mirror f rid tag e ch k m part st v) s (fun t => OnWay t f.src (.regionRsp tag 0 k (r.region rid).epoch v) ∧
        (ch = 0 → st = 0 → (t.region rid).vs k = {}) ∧
        (ch = 0 → st = 1 → ((t.region rid).vs k).st = .writing ∧ ((t.region rid).vs k).writer = some (m, 0, part)) ∧
        (ch = 0 → 2 ≤ st → ((t.region rid).vs k).st = VSt.ofCode st ∧ ((t.region rid).vs k).version = v) ∧
        (ch = 1 → st ≠ 1 → ((t.region rid).vs k).pins = ((r.region rid).vs k).pins ++ [(m, part)]) ∧
        (2 ≤ ch → st ≠ 1 → ((t.region rid).vs k).pins = ((r.region rid).vs k).pins.erase (m, part)) ∧
        (ch = 1 → st = 1 → ((t.region rid).vs k).basePins = ((r.region rid).vs k).basePins + 1) ∧
        (2 ≤ ch → st = 1 → ((t.region rid).vs k).basePins = ((r.region rid).vs k).basePins - 1) ∧ ∀ j, j ≠ k → (t.region rid).vs j = (r.region rid).vs j)) ∧
    (∀ e h, Arrives s f (.promote rid e h) r x → (r.region rid).epoch < e →
      Completes (.promote f rid e h) s (fun t => (t.region rid).epoch = e ∧ (t.region rid).homeNow = some h ∧ ∀ j, j ≠ rid → t.region j = r.region j)) ∧
    (∀ k gen, Arrives s f (.tableFetch rid tag dg k gen) r x → r.pb.region? rid = some g → g.digest = dg → r.isHome g = true → (r.slot k).imp = false →
      ((r.slot k).st = 2 ∨ (r.slot k).st = 3) → (r.slot k).gen = gen →
      Completes (.tableFetch f rid tag dg k gen) s (fun t => OnWay t f.src (.tableRsp tag 0 k gen (r.slot k).fmt (r.slot k).lens) ∧
        (t.slot k).importers.contains f.src = true ∧ (t.slot k).lens = (r.slot k).lens ∧
        ((r.slot k).st = 3 → OnWay t f.src (.tableDrop k gen)))) ∧
    (∀ k gen, Arrives s f (.tableRelease k gen) r x → (r.slot k).gen = gen →
      Completes (.tableRelease f k gen) s (fun t => (t.slot k).importers = (r.slot k).importers.filter (· != f.src))) ∧
    (∀ k gen n gs, Arrives s f (.tableDrop k gen) r x → r.gol.slots = [(n, gs)] → gs.imp = true → gs.home = f.src → gs.homeSlot = k → gs.homeGen = gen → gs.st = 2 →
      Completes (.tableDrop f k gen) s (fun t => (t.slot n).st ≠ 2 ∧
        (r.inflight n = 0 → gs.importers = [] → (t.slot n).st = 0 ∧ OnWay t f.src (.tableRelease k gen))))

/-- Reductions between modules (R173, R174, R223): a JOIN is kept for its REDUCE; DATA adds the contributions that lie in the own segment to its sums, and notes their rank; SUM takes the results up to
the end of its sender's segment; ABORT with a REASON other than GROUP_MISMATCH ends the operation ABORTED. Each is stated of the module's one reduction, for DATA the first to arrive. -/
def Obligations.ReductionMessages : Prop :=
  ∀ (s r : State) (f : Frame) (x : Sess) (g : PbGroup) (grp q : Nat),
    (∀ rank fl n, Arrives s f (.reduceJoin grp q rank fl n) r x → r.pb.group? grp = some g → g.members[rank]?.map (·.1) = some f.src → r.cav.redns = [] →
      Completes (.reduceJoin f grp q rank fl n) s (fun t => t.cav.redns = [{ group := grp, rseq := q, joined := [(rank, fl, n)] }])) ∧
    (∀ rank fmt e p d k y o, Arrives s f (.reduceData grp rank fmt q e p d) r x → r.pb.group? grp = some g → g.members[rank]?.map (·.1) = some f.src →
      r.cav.redns = [y] → y.group = grp → y.rseq = q → y.op = some o.id → y.got = [] → y.sums = [] → r.disp.ops = [o] → r.rankIn g = some k →
      segStart g.members.length (o.fieldAt 32 4) k ≤ e →
      Completes (.reduceData f grp rank fmt q e p d) s (fun t => ∃ y', t.redn? grp q = some y' ∧
        ∀ i, i < redElems fmt d.length (segStart g.members.length (o.fieldAt 32 4) (k + 1)) e → (rank, e + i) ∈ y'.got ∧
          tabFind y'.sums (e + i) = some (f32Bits (fdecode (redFmt fmt).1 (leAt d ((redFmt fmt).2 * i) (redFmt fmt).2))))) ∧
    (∀ rank fmt e p d y o, Arrives s f (.reduceSum grp rank fmt q e p d) r x → r.pb.group? grp = some g → r.cav.redns = [y] → y.group = grp → y.rseq = q → y.op = some o.id → r.disp.ops = [o] →
      Completes (.reduceSum f grp rank fmt q e p d) s (fun t => ∃ y', t.redn? grp q = some y' ∧
        ∀ i, i < redElems fmt d.length (segStart g.members.length (o.fieldAt 32 4) (rank + 1)) e → tabFind y'.result (e + i) = some (leAt d ((redFmt fmt).2 * i) (redFmt fmt).2))) ∧
    (∀ reason y o, Arrives s f (.reduceAbort grp reason q) r x → r.cav.redns = [y] → y.group = grp → y.rseq = q → y.op = some o.id → r.disp.ops = [o] → o.phase ≠ .ended →
      reason ≠ 2 →
      Completes (.reduceAbort f grp reason q) s (fun t => Ended t o.id stAborted dtGroupAbort ∧ t.cav.redns = []))

/-- Rebuilding and waiting reservations (R212, R220): a rebuild step, at a row that is not rebuilt yet and that the other members can give, starts reading its eight chunks of 128 lines from them;
a reservation that has waited as long as its region lets it is answered NO_SLOT with the current version, to the module that asked or to this module's operation. -/
def Obligations.RebuildAndSlotWait : Prop :=
  (∀ (s : State) (rid i : Nat) (g : PbRegion) (cells : List (Nat × Nat)) (deg : Bool), s.pb.region? rid = some g → s.memberIdx g = some i → s.dataUp = true →
    (s.region rid).rebuilding = true → (s.region rid).rebuildLeft = [] → setHas (s.region rid).rebuilt (s.region rid).rebuildRow = false →
    (s.region rid).rebuildRow < g.nslots * (g.per / unitBytes) → s.cav.accs = [] → cells ≠ [] → (∀ y ∈ s.pb.regions, (s.region y.rid).stalled = []) →
    s.readRoute g ((s.region rid).rebuildRow / (g.per / unitBytes)) [s.pb.moduleId] (i, (s.region rid).rebuildRow % (g.per / unitBytes)) = some (cells, deg) →
    Completes (.rebuildStep rid) s (fun t => (t.region rid).rebuildLeft = [((s.region rid).rebuildRow, 8)] ∧ (t.region rid).rebuildRow = (s.region rid).rebuildRow ∧
      t.cav.accs.map (·.who) = (List.range 8).map (fun c => .rebuild rid (s.region rid).rebuildRow c) ∧ ∀ a ∈ t.cav.accs, a.waits ≠ [])) ∧
  (∀ (s : State) (rid : Nat) (g : PbRegion) (w : Resv), s.pb.region? rid = some g → (s.region rid).waitq = [w] → w.since + g.slotWait * 1400000 ≤ s.clk.hmesh →
    (w.module ≠ s.pb.moduleId → (s.sess? w.module).isSome = true →
      Completes (.slotWaitExpiry rid w.module w.rtag) s (fun t => (t.region rid).waitq = [] ∧
        OnWay t w.module (.regionRsp w.rtag 7 0 (s.region rid).epoch ((s.region rid).current g.nslots).2))) ∧
    (∀ o, w.module = s.pb.moduleId → s.op? w.rtag = some o →
      Completes (.slotWaitExpiry rid w.module w.rtag) s (fun t => (t.region rid).waitq = [] ∧
        ∃ o', t.op? w.rtag = some o' ∧ o'.rsp = some (7, 0, ((s.region rid).current g.nslots).2))))

/-- Coldon ports (R224, R237, R251, R373): solicitations and echoes to the port's own address are answered, 1,000 a MGMT second; PFC of the port's priority pauses it, and resumes it with the frames that
waited; PAUSE frames and router advertisements are ignored; a port that goes down or whose module is removed is out of service, and one that comes up, enabled and with its module, is in service. -/
def Obligations.ColdonPorts : Prop :=
  ∀ (s : State) (p : Nat),
    (∀ a, (s.cport p).up = true → s.portIp p = some a → ((s.cport p).answeredSec ≠ s.clk.mgmt / mgmtHz ∨ (s.cport p).answered < 1000) →
      Completes (.neighborSolicitation p a) s (fun t => t.outs = .neighborAdvert p :: s.outs ∧ OnlyChanges [.outs, .cld] s t) ∧
      ∀ d, Completes (.echoRequest p a d) s (fun t => t.outs = .echoReply p d :: s.outs ∧ OnlyChanges [.outs, .cld] s t)) ∧
    (∀ a d, (s.cport p).up = true → s.portIp p = some a → (s.cport p).answeredSec = s.clk.mgmt / mgmtHz → 1000 ≤ (s.cport p).answered →
      exec (.neighborSolicitation p a) s = .next s ∧ exec (.echoRequest p a d) s = .next s) ∧
    (∀ c, s.pb.cldPorts.find? (fun x => x.port == p) = some c → c.pfcEn = true → (s.cport p).up = true →
      exec (.pfcFrame p c.pcp true) s = .next (s.modCport p (fun c => { c with paused := true })) ∧
      Completes (.pfcFrame p c.pcp false) s (fun t => (t.cport p).paused = false ∧ (t.cport p).waiting = [] ∧ t.outs = (s.cport p).waiting.reverse ++ s.outs ∧
        OnlyChanges [.outs, .cld] s t)) ∧
    exec (.pauseFrame p) s = .next s ∧ exec (.routerAdvertisement p) s = .next s ∧
    ((s.cport p).up = true → Completes (.coldonPortDown p) s (fun t => (t.cport p).up = false ∧ (t.cport p).paused = false ∧ (t.cport p).waiting = [])) ∧
    (∀ c, s.dataUp = true → s.pb.cldPorts.find? (fun x => x.port == p) = some c → c.enable = true → (s.cport p).prsntHigh = false → (s.cport p).up = false →
      s.isFailed (.coldonPort p) = false → Completes (.coldonPortUp p) s (fun t => (t.cport p).up = true)) ∧
    (p < 4 → Completes (.prsntNRise p) s (fun t => (t.cport p).prsntHigh = true ∧ (t.cport p).up = false)) ∧
    (p < 4 → exec (.prsntNFall p) s = .next (s.modCport p (fun c => { c with prsntHigh := false })))

/-- Row trackers (R266, R267, R253): a tracked row whose count has reached RD_MIT is refreshed and counts from 0 again; at the deep tier an activity whose credits reach RD_OFFENDER is
throttled and starts from 0 credits. The end of a 32 ms tracking window clears trackers and credits; that of a 16 ms one between them clears those of what is under doubling, and the credits
only where something is (the last DEDUCED, log 148). -/
def Obligations.RowTrackers : Prop :=
  (∀ (s : State) (c : Ctl) (bank row : Nat) (e : TrkEnt), (tabGet [] (s.ctl c).trackers bank).find? (fun x => x.row == row && decide ((s.ctl c).rdMit ≤ x.count)) = some e →
    Completes (.targetedRefresh c bank row) s (fun t => (t.ctl c).cntTargeted = (s.ctl c).cntTargeted + 1 ∧
      (∀ y ∈ tabGet [] (t.ctl c).trackers bank, y.row = row → y.count = 0) ∧
      (∀ b, b ≠ bank → tabGet [] (t.ctl c).trackers b = tabGet [] (s.ctl c).trackers b) ∧
      (∀ pair, c = .deep pair → e.vote ≠ 0 → e.cand ≠ actMaint → (s.ctl c).rdOffender ≤ tabGet 0 (s.ctl c).credits e.cand + 1 →
        (t.ctl c).cntOffenders = (s.ctl c).cntOffenders + 1 ∧ tabGet 0 (t.ctl c).credits e.cand = 0 ∧
        { pair := pair, act := e.cand, left := s.pb.throttleWindows } ∈ t.bud.throttles) ∧
      (∀ pair, c = .deep pair → e.vote ≠ 0 → e.cand ≠ actMaint → tabGet 0 (s.ctl c).credits e.cand + 1 < (s.ctl c).rdOffender →
        tabGet 0 (t.ctl c).credits e.cand = tabGet 0 (s.ctl c).credits e.cand + 1 ∧ t.bud.throttles = s.bud.throttles))) ∧
  (∀ (s : State) (c : Ctl) (b : Nat), s.ctlOk c = true → nextAt (s.ctl c).clearFrom 0 (16 * ctlMs c) = b → b ≤ s.ctlClock c →
    (b % (32 * ctlMs c) = 0 → Completes (.trackerClear c) s (fun t => (t.ctl c).trackers = [] ∧ (t.ctl c).credits = [] ∧ (t.ctl c).owed = (s.ctl c).owed ∧
      OnlyChanges [.dram] s t)) ∧
    (b % (32 * ctlMs c) ≠ 0 → Completes (.trackerClear c) s (fun t =>
      (t.ctl c).trackers = (s.ctl c).trackers.filter (fun e => !setHas (s.ctl c).doubled (kOfBank c e.1)) ∧
      (t.ctl c).credits = (if (s.ctl c).doubled = [] then (s.ctl c).credits else []) ∧ OnlyChanges [.dram] s t)))

/-- Refresh (R261 to R263), of a rank or pseudo-channel in service: a refresh that is due at its phase raises what is owed; outside doubling it is issued, or postponed and counted behind RT or PANIC
requests, or forced at four, and under doubling it is issued. A postponed one is issued once nothing holds it. When a refresh's time has passed, what is owed falls, and what is still owed follows
unless it is held outside a forced batch. A hot reading of a logical rank or of a stack sets doubling, and the fourth normal one in a row of the last logical rank that was hot ends it
(DEDUCED, log 41). Nothing but the controller changes. -/
def Obligations.RefreshRules : Prop :=
  ∀ (s : State) (c : Ctl) (k : Nat), s.ctlOk c = true → s.kOk c k = true →
    (∀ rt, setHas (s.ctl c).running k = false → setHas (s.ctl c).doubled k = false →
      nextAt (tabGet 0 (s.ctl c).dueFrom k) (refreshAt c k false).1 (refreshAt c k false).2 ≤ s.ctlClock c →
      (tabGet 0 (s.ctl c).owed k < 3 →
        Completes (.refreshDue c k rt) s (fun t => tabGet 0 (t.ctl c).owed k = tabGet 0 (s.ctl c).owed k + 1 ∧ setHas (t.ctl c).running k = !s.refreshHeld c k rt ∧
          (t.ctl c).cntPostponed = (s.ctl c).cntPostponed + (if s.refreshHeld c k rt then tabGet 0 (s.ctl c).owed k + 1 - tabGet 0 (s.ctl c).late k else 0) ∧
          OnlyChanges [.dram] s t)) ∧
      (3 ≤ tabGet 0 (s.ctl c).owed k →
        Completes (.refreshDue c k rt) s (fun t => tabGet 0 (t.ctl c).owed k = 4 ∧ setHas (t.ctl c).running k = true ∧ setHas (t.ctl c).forced k = true ∧
          (t.ctl c).cntForced = (s.ctl c).cntForced + 1 ∧ OnlyChanges [.dram] s t))) ∧
    (∀ rt, setHas (s.ctl c).running k = false → setHas (s.ctl c).doubled k = true →
      nextAt (tabGet 0 (s.ctl c).dueFrom k) (refreshAt c k true).1 (refreshAt c k true).2 ≤ s.ctlClock c →
      Completes (.refreshDue c k rt) s (fun t => tabGet 0 (t.ctl c).owed k = min 4 (tabGet 0 (s.ctl c).owed k + 1) ∧ setHas (t.ctl c).running k = true ∧
        (t.ctl c).cntForced = (s.ctl c).cntForced ∧ OnlyChanges [.dram] s t)) ∧
    (∀ rt, setHas (s.ctl c).running k = false → tabGet 0 (s.ctl c).owed k ≠ 0 → (s.refreshHeld c k rt = false ∨ setHas (s.ctl c).forced k = true) →
      Completes (.refreshIssue c k rt) s (fun t => setHas (t.ctl c).running k = true ∧ (t.ctl c).owed = (s.ctl c).owed ∧ OnlyChanges [.dram] s t)) ∧
    (setHas (s.ctl c).running k = true → tabGet 0 (s.ctl c).runAt k + refreshCycles c ≤ s.ctlClock c →
      Completes (.refreshComplete c k) s (fun t => tabGet 0 (t.ctl c).owed k = tabGet 0 (s.ctl c).owed k - 1 ∧
        (tabGet 0 (s.ctl c).owed k ≤ 1 → setHas (t.ctl c).running k = false ∧ setHas (t.ctl c).forced k = false) ∧
        (2 ≤ tabGet 0 (s.ctl c).owed k → setHas (t.ctl c).running k = (!s.refreshHeld c k false || setHas (s.ctl c).forced k)) ∧ OnlyChanges [.dram] s t)) ∧
    (∀ lr i d temp, (i = 8 * k + lr ∧ lr < s.lrs ∧ (∃ p, c = .deep p) ∨ i = 8 * k ∧ ∃ n, c = .near n) →
      (∀ t0, tabGet none (s.ctl c).mr4At i = some t0 →
        s.ctlClock c / (16 * (refreshAt c k (setHas (s.ctl c).doubled k)).2) ≠ t0 / (16 * (refreshAt c k (setHas (s.ctl c).doubled k)).2)) →
      ((∃ p, c = .deep p ∧ d = true) ∨ (∃ n, c = .near n ∧ 1360 ≤ temp) →
        Completes (.mr4Read c k ⟨lr, d, temp⟩) s (fun t => setHas (t.ctl c).doubled k = true ∧ tabGet 0 (t.ctl c).normalReads i = 4 ∧ OnlyChanges [.dram] s t)) ∧
      ((∃ p, c = .deep p ∧ d = false) ∨ (∃ n, c = .near n ∧ temp < 1360) → tabGet 0 (s.ctl c).normalReads i = 1 →
        (∀ l, l < 8 → 8 * k + l ≠ i → tabGet 0 (s.ctl c).normalReads (8 * k + l) = 0) →
        Completes (.mr4Read c k ⟨lr, d, temp⟩) s (fun t => setHas (t.ctl c).doubled k = false ∧ OnlyChanges [.dram] s t)))

/-- Retraining and frequency changes (R265, R270 to R272): a round, periodic at its time or after a change of 8 °C, has 64 steps; a step that nothing delays and that passes at once or again is one
fewer, and one deferred for 1 ms begins regardless; a change takes the lowest pair off its point when no PANIC request waits there, and its end puts the target in use and counts the pause.
DCTL_XLATE_MA takes the address written. -/
def Obligations.RetrainAndFrequency : Prop :=
  (∀ (s : State) (c : Ctl) (k : Nat) (periodic : Bool) (temp : Int), s.ctlOk c = true →
    (periodic = true ∧ nextAt (tabGet 1 (s.ctl c).roundFrom k) 0 (2 ^ (s.ctl c).retrainLog2 * ctlMs c) ≤ s.ctlClock c ∨
      128 ≤ (temp - tabGet (0 : Int) (s.ctl c).lastTemp k).natAbs) →
    Completes (.retrainRound c k periodic temp) s (fun t => tabGet 0 (t.ctl c).steps k = 64 ∧ tabGet (0 : Int) (t.ctl c).lastTemp k = temp ∧ OnlyChanges [.dram] s t)) ∧
  (∀ (s : State) (c : Ctl) (k : Nat) (ok again : Bool), s.ctlOk c = true → tabGet 0 (s.ctl c).steps k ≠ 0 →
    (∀ t0, tabGet none (s.ctl c).lastStepAt k = some t0 → t0 + 32 * ctlMhz c ≤ s.ctlClock c) → (s.ctl c).changing = false → s.panicAt c k = false →
    (∀ r ∈ stepKs c k, tabGet 0 (s.ctl c).owed r < 2) → (ok = true ∨ again = true) →
    Completes (.retrainStep c k false ok again) s (fun t => tabGet 0 (t.ctl c).steps k = tabGet 0 (s.ctl c).steps k - 1 ∧
      (t.ctl c).cntSteps = (s.ctl c).cntSteps + 1 ∧ tabGet none (t.ctl c).lastStepAt k = some (s.ctlClock c) ∧ OnlyChanges [.dram] s t)) ∧
  (∀ (s : State) (c : Ctl) (k t0 : Nat), tabGet none (s.ctl c).deferSince k = some t0 → t0 + 1000 * ctlMhz c ≤ s.ctlClock c → tabGet 0 (s.ctl c).steps k ≠ 0 →
    Completes (.retrainDeferExpiry c k) s (fun t => tabGet 0 (t.ctl c).steps k = tabGet 0 (s.ctl c).steps k - 1 ∧ (t.ctl c).cntDefer = (s.ctl c).cntDefer + 1 ∧
      tabGet none (t.ctl c).deferSince k = none ∧ OnlyChanges [.dram] s t)) ∧
  (∀ (s : State) (pair : Nat), s.ctlOk (.deep pair) = true → (s.ctl (.deep pair)).opCur ≠ (s.ctl (.deep pair)).opTarget →
    s.panicWaits pair (fun _ => true) = false → (∀ p, p < 8 → (s.ctl (.deep p)).changing = false ∧ (p < pair → (s.ctl (.deep p)).opCur = (s.ctl (.deep p)).opTarget)) →
    Completes (.freqChangeStart pair false) s (fun t => (t.ctl (.deep pair)).changing = true ∧ (t.ctl (.deep pair)).owed = [] ∧
      (t.ctl (.deep pair)).opCur = (s.ctl (.deep pair)).opCur ∧ (∀ q, q ≠ pair → t.ctl (.deep q) = s.ctl (.deep q)) ∧ OnlyChanges [.dram] s t)) ∧
  (∀ (s : State) (pair ns : Nat) (hot : List Bool), (s.ctl (.deep pair)).changing = true → s.cav.heldReads = [] →
    Completes (.freqChangeDone pair hot ns) s (fun t => (t.ctl (.deep pair)).changing = false ∧ (t.ctl (.deep pair)).opCur = (s.ctl (.deep pair)).opTarget ∧
      (t.ctl (.deep pair)).cntFreq = (s.ctl (.deep pair)).cntFreq + 1 ∧ (t.ctl (.deep pair)).cntPauseNs = (s.ctl (.deep pair)).cntPauseNs + ns ∧
      (∀ q, q ≠ pair → t.ctl (.deep q) = s.ctl (.deep q)) ∧ OnlyChanges [.dram] s t)) ∧
  (∀ (s : State) (rq : Requester) (pair v : Nat), s.mgmtUp = true → pair < 8 → s.mgmtRights rq = true →
    Completes (.dctlXlateMa rq pair (.full v)) s (fun t => (t.ctl (.deep pair)).xlateMa = v % 2 ^ 46 ∧ OnlyChanges [.dram, .host] s t))

/-- Scrubbing, the locate step and migration (R277, R282 to R284): a deep-tier scrubber that is granted its next line, of an uncoded block, and reads it without error goes on behind it and marks
nothing; a locate step that finds a second device of a rank marks it, and one that finds none loses its line; a migration moves the next user block of its rank to the next target, and retires the
rank when no block is left. -/
def Obligations.ScrubLocateMigrate : Prop :=
  (∀ (s : State) (pair line : Nat) (errs : List SymErr), s.ctlOk (.deep pair) = true → s.nextScrub pair (tabGet 0 s.ras.scrubDeep pair) = some line →
    s.deepStopped (line / 64) actMaint 64 = false → s.deepTurn { line := line, act := actMaint, rd := true } = true → s.ent? (line / 64) = none → decodeLine (s.rank (s.rankOf (line / 64))).marks errs 0 = .good [] →
    Completes (.scrubStep (.deep pair) errs) s (fun t => tabGet 0 t.ras.scrubDeep pair = s.scrubKey line + 1 ∧ t.ras.ueDeep = s.ras.ueDeep ∧ t.ras.ranks = s.ras.ranks)) ∧
  (∀ (s : State) (rank line d : Nat), (s.rank rank).locating = some line → d < 10 → (s.rank rank).mark1 ≠ d → (s.rank rank).mark1 ≠ 15 → (s.rank rank).mark2 = 15 →
    Completes (.deviceLocate rank (some d)) s (fun t => (t.rank rank).locating = none ∧ (t.rank rank).mark2 = d ∧ (t.rank rank).mark1 = (s.rank rank).mark1 ∧ t.mem = s.mem)) ∧
  (∀ (s : State) (rank line : Nat), (s.rank rank).locating = some line → s.mem.merge = [] → s.mem.bmap = [] →
    Completes (.deviceLocate rank none) s (fun t => (t.rank rank).locating = none ∧ setHas t.mem.deepPoison line = true ∧ t.ras.ueDeep = s.ras.ueDeep + 1)) ∧
  (∀ (s : State) (k n : Nat) (errs : List SymErr), s.dataUp = true → s.ras.migrating = some (k, n) → n < s.userBlks → s.targets ≠ [] →
    s.deepStopped (rankBlk k n) actMaint 4096 = false → s.deepTurn { line := 64 * rankBlk k n, act := actMaint, rd := true } = true → s.ras.recov = [] →
    (s.readDeepLines ((List.range 64).map (64 * rankBlk k n + ·)) errs).1 ≠ .locating →
    Completes (.migrationStep errs) s (fun t => t.ras.migrating = some (k, n + 1) ∧ tabFind t.ras.remap (rankBlk k n) = s.targets[n % s.targets.length]?)) ∧
  (∀ (s : State) (k n : Nat) (errs : List SymErr), s.dataUp = true → s.ras.migrating = some (k, n) → s.userBlks + s.metaBlks ≤ n → s.targets ≠ [] →
    s.ras.remap.find? (fun e => e.2 == k) = none → s.ras.retireq = [] →
    Completes (.migrationStep errs) s (fun t => t.ras.migrating = none ∧ (t.rank k).st = 4 ∧ t.mem = s.mem))

/-- Recovery, hold limit and the erase sweep (R286, R287, R324), while no other reader waits: a recovery that finds a source that passes restores the block, and one that finds none leaves it lost; an
operation that has waited HOLD_LIMIT for a block goes on with it given up, and a host read is answered with poison; a sweep passes its next line, and ends behind its last. -/
def Obligations.RecoveryAndSweep : Prop :=
  (∀ (s : State) (b : Nat) (r : Recov) (e : MapEnt) (de re : Bool) (cv : Option Bytes), s.ras.recov = [r] → r.block = b → s.ent? b = some e → HostIdle s →
    s.cav.heldReads = [] → s.mem.merge = [] →
    (∀ src bs, s.recoverySource r e de re cv = some (src, bs) →
      Completes (.recoveryEnd b de re cv) s (fun t => t.ras.recov = [] ∧ t.ras.recovered = s.ras.recovered + 1 ∧ t.ras.unrecovered = s.ras.unrecovered ∧
        tabFind t.ras.gone b = none)) ∧
    (s.recoverySource r e de re cv = none →
      Completes (.recoveryEnd b de re cv) s (fun t => t.ras.recov = [] ∧ t.ras.unrecovered = s.ras.unrecovered + 1 ∧ tabFind t.ras.gone b = some r.stale ∧
        t.mem = s.mem))) ∧
  (∀ (s : State) (o : Op) (blk since : Nat), s.disp.ops = [o] → o.held = some (blk, since) → since + s.holdCycles ≤ s.clk.hmesh →
    Completes (.holdLimitExpiry (o.id + 2 ^ 32)) s (fun t => (∃ o', t.op? o.id = some o' ∧ o'.held = none ∧ setHas o'.given blk = true) ∧
      t.ras.holdExpired = s.ras.holdExpired + 1 ∧ OnlyChanges [.disp, .ras] s t)) ∧
  (∀ (s : State) (r : HostReq) (t0 : Nat), s.host.reqs = [r] → s.host.ingress = [] → r.id < 2 ^ 32 → r.wait = .recovery t0 → r.op = .rd → t0 + s.holdCycles ≤ s.clk.hmesh →
    Completes (.holdLimitExpiry r.id) s (fun t => t.host.reqs = [] ∧ t.ras.holdExpired = s.ras.holdExpired + 1 ∧
      ∃ dl, t.outs.head? = some (.memData r.port r.ld r.tag (deadLine r.line) true .noOp dl))) ∧
  (∀ (s : State) (e : Erased), s.mem.erased = [e] → e.size ≠ 0 → setHas e.cleared e.next = false →
    Completes (.eraseSweepStep e.pair) s (fun t =>
      t.mem.erased = (if (e.base + e.size - 1) / 131072 ≤ e.next then [] else [{ e with next := e.next + 1 }]) ∧ t.mem.deep = s.mem.deep ∧
        OnlyChanges [.mem, .bud] s t))

/-- The power controller's tick of 10 µs (R290 to R300), given once its time has come (DESIGN CHOICE, log 3). While the caps of a prompt book are in force it takes the input voltage, adds M and E to the
running sums, moves the demand of the peak cap by the steps of R299, and sets the levels from the demands; before that only the readings count. -/
def Obligations.PowerTick : Prop :=
  (∀ (s : State) (i : TickInput), s.mgmtUp = true → s.mgmt.phase ≠ .recovery → nextAt s.pwr.tickFrom 0 5000 ≤ s.clk.mgmt → s.capsOn = true →
    Completes (.powerTick i) s (fun t => t.pwr.ticks = s.pwr.ticks + 1 ∧ t.pwr.sumM = s.pwr.sumM + i.meanMw ∧ t.pwr.lastM = i.meanMw ∧ t.pwr.volts = i.meanMv ∧
      t.pwr.sumE = s.pwr.sumE + dieEstimate 0 i + dieEstimate 1 i + dieEstimate 2 i + Config.energyFixed ∧ t.pwr.held = false ∧
      (t.pwr.lastP ≤ 1000 * s.pwr.peak → t.pwr.dem 0 = s.pwr.dem 0) ∧
      (1000 * s.pwr.peak < t.pwr.lastP → 100 * t.pwr.lastP ≤ 105 * (1000 * s.pwr.peak) → t.pwr.dem 0 = riseBy 0 s.deepLimit (s.pwr.dem 0) 1) ∧
      (105 * (1000 * s.pwr.peak) < 100 * t.pwr.lastP → t.pwr.dem 0 = riseBy 0 s.deepLimit (s.pwr.dem 0) 4) ∧
      t.pwr.levelA = t.pwr.dieLevel 2 5 ∧ t.pwr.levelB = t.pwr.dieLevel 3 6 ∧ t.pwr.levelHub = t.pwr.hubLevel ∧ t.mem = s.mem ∧ t.sec = s.sec)) ∧
  (∀ (s : State) (i : TickInput), s.mgmtUp = true → s.mgmt.phase ≠ .recovery → nextAt s.pwr.tickFrom 0 5000 ≤ s.clk.mgmt → s.capsOn = false →
    Completes (.powerTick i) s (fun t => t.pwr.ticks = s.pwr.ticks ∧ t.pwr.sumM = s.pwr.sumM ∧ t.pwr.volts = i.meanMv ∧ t.pwr.demand = s.pwr.demand ∧ t.mem = s.mem))

/-- Calibration, falling demands and caps (R293, R294, R296, R299, R302): f stays from 0.8 to 1.25, held in units of 1/16,384, and moves by at most 1 % in an interval; f goes to NVM an hour after the
last time, while the last interval agreed; a demand that may fall falls by one step; a start held to DEFER_LIMIT completes CAP_DEFERRED; caps within their bounds are taken whole, and a peak cap outside them is refused and recorded. -/
def Obligations.CalibrationAndCaps : Prop :=
  (∀ (s : State), 100 ≤ s.pwr.ticks → s.pwr.measBad = false → 13108 ≤ s.pwr.factor → s.pwr.factor ≤ 20480 →
    Completes .calibrationInterval s (fun t => t.pwr.ticks = 0 ∧ t.pwr.sumM = 0 ∧ t.pwr.sumE = 0 ∧ 13108 ≤ t.pwr.factor ∧ t.pwr.factor ≤ 20480 ∧
      t.pwr.factor ≤ s.pwr.factor + 163 ∧ s.pwr.factor ≤ t.pwr.factor + 163 ∧ OnlyChanges [.pwr] s t)) ∧
  (∀ (s : State), s.mgmtUp = true → s.pwr.fault = false → s.pwr.agreed = true → s.mgmt.phase ≠ .recovery → s.pwr.nvmAt ≤ s.clk.mgmt →
    Completes .calNvmWrite s (fun t => (t.nor 0).f = s.pwr.factor ∧ (t.nor 1).f = s.pwr.factor ∧ (t.nor 0).fw = (s.nor 0).fw ∧
      t.pwr = { s.pwr with nvmAt := s.clk.mgmt + 3600 * mgmtHz } ∧ OnlyChanges [.mgmt, .pwr] s t)) ∧
  (∀ (s : State) (c : Cap), s.pwr.dem (capKey c) ≠ 0 → 10 ≤ tabGet 0 s.pwr.below (capKey c) →
    (s.pwr.dem (capKey c) < 39 ∨ s.freqBusy = false ∨ (moduleCap (capKey c) = false ∧ hubCap (capKey c) = false)) →
    Completes (.demandFall c) s (fun t => t.pwr.dem (capKey c) = (if hubCap (capKey c) ∧ s.pwr.dem (capKey c) = 39 then 0 else s.pwr.dem (capKey c) - 1) ∧
      tabGet 0 t.pwr.below (capKey c) = 0 ∧ (∀ k, k ≠ capKey c → t.pwr.dem k = s.pwr.dem k) ∧ OnlyChanges [.pwr, .dram] s t)) ∧
  (∀ (s : State) (o : Op), s.disp.ops = [o] → o.started = false → o.phase = .admitted → o.checked = true → o.waits = [] → o.truncated = false → 42 ≤ s.pwr.levelHub →
    o.checkedAt + s.pwr.deferLimit * 1400000 ≤ s.clk.hmesh →
    Completes (.capDeferred o.id) s (fun t => Ended t o.id stCapDeferred dtNone ∧ t.pwr.deferred = s.pwr.deferred + 1 ∧ OnlyChanges [.disp, .pwr] s t)) ∧
  (∀ (s : State) (rq : Requester) (v : Nat), s.mgmtUp = true → s.mgmt.phase ≠ .recovery → s.mgmtRights rq = true → 1200 ≤ bits v 31 16 → bits v 31 16 ≤ s.pb.peakW →
    1000 ≤ bits v 15 0 → bits v 15 0 ≤ s.pb.sustainedW → bits v 15 0 ≤ bits v 31 16 →
    exec (.pwrCapModule rq v) s = .next { s with pwr := { s.pwr with peak := bits v 31 16, sustained := bits v 15 0 } }) ∧
  (∀ (s : State) (rq : Requester) (v : Nat), s.mgmtUp = true → s.mgmt.phase ≠ .recovery → s.mgmtRights rq = true → v < 2 ^ 64 → 200 ≤ bits v 15 0 →
    bits v 15 0 ≤ s.pb.dieAW → 200 ≤ bits v 31 16 → bits v 31 16 ≤ s.pb.dieBW → 300 ≤ bits v 47 32 → bits v 47 32 ≤ s.pb.hubW →
    Completes (.pwrCapDie rq (.full v)) s (fun t => t.pwr.dieA = bits v 15 0 ∧ t.pwr.dieB = bits v 31 16 ∧ t.pwr.hub = bits v 47 32 ∧
      OnlyChanges [.pwr, .host] s t)) ∧
  (∀ (s : State) (v : Nat), s.mgmtUp = true → s.mgmt.phase ≠ .recovery → (bits v 31 16 < 1200 ∨ s.pb.peakW < bits v 31 16) →
    Completes (.pwrCapModule .mgmt v) s (fun t => t.pwr = s.pwr ∧ t.mgmt.logNext = (s.mgmt.logNext + 1) % 2 ^ 32))

/-- Power-up, the module-level reset pin, the loss of standby power and trips (R306, R307, R334, R375, R378): a power-up samples the address strap and starts the module, or leaves it held while the
reset pin is low; STBY_PWRGD follows the standby rail; each of the others leaves the data plane down, with nothing in its memories; the cause of a reset is kept, a pulse of less than 2 µs is ignored, and a trip names its sensor in both NOR devices. -/
def Obligations.PowerAndPins : Prop :=
  (∀ (s : State) (a : Nat), s.mgmt.standby = false → s.mgmt.resetLow = false →
    Completes (.powerUp a) s (fun t => t.mgmt.standby = true ∧ t.stbyPwrgd = true ∧ t.i3cAddr = 0x30 + a % 16 ∧ t.mgmt.resetCause = 0 ∧ t.pwr.tripped = false ∧ t.dataUp = false ∧ t.mem = {} ∧ t.parts = [])) ∧
  (∀ (s : State) (a : Nat), s.mgmt.standby = false → s.mgmt.resetLow = true →
    Completes (.powerUp a) s (fun t => t.mgmt.standby = true ∧ t.mgmt.phase = .held ∧ t.mem = s.mem)) ∧
  (∀ (s : State) (w : Nat), 2000 ≤ w → s.mgmt.resetLow = false → s.mgmt.standby = true →
    Completes (.modResetNAssert w) s (fun t => t.mgmt.phase = .held ∧ t.mgmt.resetLow = true ∧ t.mem = {} ∧ t.disp = {} ∧ t.sec.keysLive = false ∧ t.cld.sessions = [] ∧
      (s.cld.sessions = [] → t.mgmt.log = s.mgmt.log) ∧ t.mgmt.nor = s.mgmt.nor)) ∧
  (∀ (s : State) (w : Nat), w < 2000 → exec (.modResetNAssert w) s = .next s) ∧
  (∀ (s : State), s.mgmt.resetLow = true → s.mgmt.standby = true →
    Completes .modResetNRelease s (fun t => t.mgmt.resetLow = false ∧ t.mgmt.resetCause = 1 ∧ t.dataUp = false ∧ t.mem = {})) ∧
  (∀ (s : State), s.mgmt.standby = true →
    Completes .standbyLoss s (fun t => t.mgmt.phase = .off ∧ t.stbyPwrgd = false ∧ t.modPwrgd = false ∧ t.mgmt.log = [] ∧ t.mem = {} ∧ t.sec.dbgData = false ∧ t.sec.nonce = none ∧
      t.mgmt.timeKnown = false ∧ t.mgmt.nor = s.mgmt.nor ∧ t.sec.claimed = s.sec.claimed ∧ t.sec.fwSvn = s.sec.fwSvn)) ∧
  (∀ (s : State) (n : Nat) (c : Int), s.railsUp = true → 115 * 16 ≤ c → n < 96 →
    Completes (.thermalTrip n c) s (fun t => t.pwr.tripped = true ∧ t.pwr.tripSensor = n ∧ t.mgmt.phase = .tripped ∧ t.mem = {} ∧
      (t.nor 0).trips = (s.nor 0).trips ++ [(n, c)] ∧ (t.nor 1).trips = (s.nor 1).trips ++ [(n, c)])) ∧
  (∀ (s : State), s.railsUp = true →
    Completes .supplyTrip s (fun t => t.pwr.tripped = true ∧ t.pwr.tripSensor = 0x7F ∧ t.mgmt.phase = .tripped ∧ t.mem = {}))

/-- Start, reload and module resets (R306, R334 to R340, R78): a start puts its prompt book in force, or ends in safe mode for reason 7 when the hub or a deep-tier channel failed; one that takes 30 s
ends there for reason 8; RELOAD of a book that passes its checks stops the data plane and its end puts the book in force; RELOAD of one that fails a check before validation changes nothing and answers a STATUS of Table 0-4
other than OK (which one, DESIGN CHOICE, log 28); MODULE_RESET and MODULE_RESTART leave their cause, and a restart while TRIPPED is 0 is refused; RESET_PARTITION begins a partition reset. -/
def Obligations.StartAndReload : Prop :=
  (∀ (s : State) (n : Nat) (img : Bytes) (b : PromptBook) (c d : Bool) (failed : List UnitId), s.mgmt.phase = .booting → s.mgmt.reload = some (n, img, b, c, d) →
    (∀ u ∈ failed, u ≠ .hub ∧ ∀ k, u ≠ .deepCtl k) →
    Completes (.trainingComplete failed) s (fun t => t.mgmt.phase = .up ∧ t.mgmt.pb = b ∧ t.mgmt.reload = none ∧ t.mgmt.rwlLocked = true ∧ t.ras.failed = failed ∧ t.sec.keysLive = true ∧ t.mgmt.safeReason = 0 ∧
      t.pwr.peak = b.peakW ∧ t.pwr.sustained = b.sustainedW ∧ t.disp.ops = [])) ∧
  (∀ (s : State) (n : Nat) (img : Bytes) (b : PromptBook) (c d : Bool) (failed : List UnitId), s.mgmt.phase = .booting → s.mgmt.reload = some (n, img, b, c, d) →
    (.hub ∈ failed ∨ ∃ k, .deepCtl k ∈ failed) → Completes (.trainingComplete failed) s (fun t => t.mgmt.phase = .safe ∧ t.mgmt.safeReason = 7)) ∧
  (∀ (s : State), s.mgmt.phase = .booting → s.mgmt.fromSafe = false → 30 * mgmtHz ≤ s.clk.mgmt → s.mgmt.trial = false →
    Completes .startTimeout s (fun t => t.mgmt.phase = .safe ∧ t.mgmt.safeReason = 8 ∧ t.mem = {})) ∧
  (∀ (s : State) (m : MgmtHdr) (slot : Nat), Answerable s m → s.mgmt.phase = .up → slot < 2 → s.mgmt.fromSafe = false → Completes (.reload m slot) s (fun t =>
      (∀ b, s.checkSlot slot = .good b → t.mgmt.phase = .reloading ∧ t.host.reqs = [] ∧ t.disp.ops = [] ∧ t.mgmt.rwlLocked = false ∧ t.cld.half = [] ∧
        Answers t m 0x04 stOk causeNone { code := 0 } ∧ ∃ x y, t.mgmt.reload = some (slot, (s.nor slot).pb, b, x, y)) ∧
      (∀ c, s.checkSlot slot = .bad c none → t = s.emit (.mgmt m.path 0x04 m.tag (openStatus openReload) causeNone { code := c })))) ∧
  (∀ (s : State) (slot : Nat) (img : Bytes) (b : PromptBook) (changed share : Bool), s.mgmt.phase = .reloading → s.mgmt.reload = some (slot, img, b, changed, share) →
    Completes .reloadComplete s (fun t => t.mgmt.phase = .up ∧ t.mgmt.pb = b ∧ t.mgmt.reload = none ∧ t.mgmt.rwlLocked = true)) ∧
  (∀ (s : State) (m : MgmtHdr), Answerable s m →
    Completes (.moduleReset m) s (fun t => t.mgmt.resetCause = 2 ∧ t.dataUp = false ∧ t.mem = {} ∧ Answers t m 0x02 stOk causeNone { code := 0 })) ∧
  (∀ (s : State) (m : MgmtHdr), Answerable s m → s.pwr.tripped = true → (∀ x ∈ s.pwr.sensors, x.2 < 95 * 16) →
    Completes (.moduleRestart m) s (fun t => t.mgmt.resetCause = 3 ∧ t.pwr.tripped = false ∧ Answers t m 0x03 stOk causeNone { code := 0 })) ∧
  (∀ (s : State) (m : MgmtHdr), Answerable s m → s.pwr.tripped = false →
    exec (.moduleRestart m) s = .next (s.emit (.mgmt m.path 0x03 m.tag (openStatus openState) causeState { code := 0 }))) ∧
  (∀ (s : State) (m : MgmtHdr) (q : Nat), Answerable s m → s.dataUp = true → s.pb.hasPart q = true → (s.part q).reset = none → (s.part q).st ≠ 3 →
    Completes (.resetPartition m q) s (fun t => (t.part q).st = 1 ∧ (∃ j, (t.part q).reset = some j ∧ j.newKey = ((s.pb.part? q).map (·.keyOnReset)).getD false) ∧
      Answers t m 0x01 stOk causeNone { code := 0 }))

/-- Management commands (R218, R342, R343, R346, R350): EPOCH halves the access counters; CAVERN_PROMOTE moves a region's home here; TIME_SET sets the time; LOG_READ answers entries and moves its
bookmark; BOOKMARK_SET and LOG_BMK move it; REG_READ and REG_WRITE read and write a register (of every one, DCTL_XLATE_MA stands here); a code the table does not have is answered BAD_DESCRIPTOR with cause RANGE. -/
def Obligations.ManagementCommands : Prop :=
  ∀ (s : State) (m : MgmtHdr), Answerable s m →
    (s.dataUp = true → (s.mem.rdCnt.map (·.1)).Nodup → (s.mem.wrCnt.map (·.1)).Nodup →
      Completes (.epoch m) s (fun t => (∀ pg, tabGet 0 t.mem.rdCnt pg = tabGet 0 s.mem.rdCnt pg / 2 ∧ tabGet 0 t.mem.wrCnt pg = tabGet 0 s.mem.wrCnt pg / 2) ∧
        Answers t m 0x05 stOk causeNone { code := 0 } ∧ OnlyChanges [.mem, .parts, .outs] s t)) ∧
    (∀ rid g, s.pb.region? rid = some g → s.dataUp = true → g.kind = 1 → g.altHome = s.pb.moduleId →
      Completes (.cavernPromote m rid) s (fun t => (t.region rid).epoch = (s.region rid).epoch + 1 ∧ (t.region rid).homeNow = some s.pb.moduleId ∧
        (t.region rid).waitq = [] ∧ Answers t m 0x06 stOk causeNone { code := 0 })) ∧
    (∀ v, Completes (.timeSet m v) s (fun t => t.mgmt.timeKnown = true ∧ t.mgmt.timeOffset + ((2 * s.clk.mgmt : Nat) : Int) = ((v % 2 ^ 64 : Nat) : Int) ∧
      t.mgmt.logNext = (s.mgmt.logNext + 1) % 2 ^ 32 ∧ Answers t m 0x07 stOk causeNone { code := 0 } ∧ OnlyChanges [.mgmt, .outs, .host] s t)) ∧
    (∀ b n, b < 8 → 1 ≤ n → n ≤ 64 →
      Completes (.logRead m b n) s (fun t => Answers t m 0x08 stOk causeNone
          { code := 0, vals := [(s.logFrom (s.bookmark b)).1], data := ((s.logFrom (s.bookmark b)).2.take n).flatMap LogEnt.bytes } ∧
        (∀ c, c ≠ b → t.bookmark c = s.bookmark c) ∧ t.mgmt.log = s.mgmt.log ∧ OnlyChanges [.mgmt, .outs] s t)) ∧
    (∀ b v, b < 8 → Completes (.bookmarkSet m b 0 v) s (fun t => t.bookmark b = s.mgmt.logOldest ∧ Answers t m 0x09 stOk causeNone { code := 0 } ∧
      OnlyChanges [.mgmt, .outs] s t)) ∧
    (∀ b v, b < 8 → Completes (.bookmarkSet m b 1 v) s (fun t => t.bookmark b = (if s.mgmt.log = [] then s.mgmt.logNext else (s.mgmt.logNext + 2 ^ 32 - 1) % 2 ^ 32) ∧
      OnlyChanges [.mgmt, .outs] s t)) ∧
    (∀ b v, b < 8 → s.seqInLog v = true → Completes (.bookmarkSet m b 2 v) s (fun t => t.bookmark b = v ∧ Answers t m 0x09 stOk causeNone { code := 0 } ∧
      OnlyChanges [.mgmt, .outs] s t)) ∧
    (∀ rq b v, b < 8 → s.mgmtRights rq = true → s.seqInLog v = true → exec (.logBmkWrite rq b v) s = .next (s.setBookmark b v)) ∧
    (∀ k, k < 8 → Completes (.regRead m (0x100900010 + 0x1000 * k) 8) s (fun t =>
      Answers t m 0x10 stOk causeNone { code := 0, vals := [(s.ctl (.deep k)).xlateMa % 2 ^ 64] } ∧ OnlyChanges [.outs, .host] s t)) ∧
    (∀ k v, k < 8 → Completes (.regWrite m (0x100900010 + 0x1000 * k) 8 v) s (fun t => (t.ctl (.deep k)).xlateMa = v % 2 ^ 46 ∧
      t.xlateOut k = (s.setXlateMa k v).xlateOut k ∧ Answers t m 0x11 stOk causeNone { code := 0 } ∧ OnlyChanges [.outs, .host, .dram] s t)) ∧
    (∀ c, c < 256 → c ∉ mgmtCodes → exec (.unknownCommand m c) s = .next (s.emit (.mgmt m.path c m.tag stBadDescriptor causeRange { code := 0 })))

/-- Ownership and debug (R314 to R316, R325, R326), in a session: a claim whose signature verifies sets the owner; a transfer writes the next bank and resets; COSIGN is set for good; a challenge
draws a nonce that it answers; a token that passes opens its scopes after a reset, and DEBUG_LOCK closes them. A command whose signature or token fails is refused and changes nothing (its STATUS is of Table 0-4 and not OK; which one, DESIGN CHOICE, log 28), and DEBUG_LOCK outside a session is refused. -/
def Obligations.OwnershipAndDebug : Prop :=
  ∀ (s : State) (m : MgmtHdr), Answerable s m → m.secured = true →
    (∀ key sig, s.sec.claimed = false → Completes (.ownerClaim m key sig) s (fun t =>
      (ecdsaVerify key (sha512 Config.serial) sig = true → t.sec.claimed = true ∧ t.sec.bank = 0 ∧ t.ownerHash = sha512 key ∧
        t.sec.cosign = s.sec.cosign ∧ Answers t m 0x20 stOk causeNone { code := 0 } ∧ OnlyChanges [.sec, .mgmt, .outs, .host] s t) ∧
      (ecdsaVerify key (sha512 Config.serial) sig = false → t = s.emit (.mgmt m.path 0x20 m.tag (openStatus openSignature) causeNone { code := 0 })))) ∧
    (∀ h nonce sig, s.sec.claimed = true → s.sec.bank < 3 → s.sec.nonce = some nonce → Completes (.ownerTransfer m h Config.serial nonce sig) s (fun t =>
      (Config.ownerVerify s.ownerHash (sha512 (h ++ Config.serial ++ nonce)) sig = true → t.sec.bank = s.sec.bank + 1 ∧ t.ownerHash = h ∧
        t.mgmt.resetCause = 5 ∧ t.sec.keysLive = false ∧ t.mem = {} ∧ Answers t m 0x21 stOk causeNone { code := 0 }) ∧
      (Config.ownerVerify s.ownerHash (sha512 (h ++ Config.serial ++ nonce)) sig = false → t = s.emit (.mgmt m.path 0x21 m.tag (openStatus openSignature) causeNone { code := 0 })))) ∧
    (∀ sig, s.sec.claimed = true → Completes (.cosignSet m sig) s (fun t =>
      (Config.cosignVerify s.ownerHash sig = true → t.sec.cosign = true ∧ t.sec.bank = s.sec.bank ∧ Answers t m 0x22 stOk causeNone { code := 0 }) ∧
      (Config.cosignVerify s.ownerHash sig = false → t = s.emit (.mgmt m.path 0x22 m.tag (openStatus openSignature) causeNone { code := 0 })))) ∧
    Completes (.debugChallenge m) s (fun t => ∃ n, t.sec.nonce = some n ∧ Answers t m 0x23 stOk causeNone { code := 0, data := n } ∧
      OnlyChanges [.sec, .free, .outs] s t) ∧
    (∀ tok, Completes (.debugUnlock m tok) s (fun t =>
      (s.tokenOk tok = true → t.sec.nonce = none ∧ t.sec.dbgData = (s.sec.dbgData || bit (tokenScope tok) 2) ∧
        t.sec.dbgMgmt = (s.sec.dbgMgmt || bit (tokenScope tok) 1) ∧ t.sec.dbgUart = (s.sec.dbgUart || bit (tokenScope tok) 0) ∧ t.mgmt.resetCause = 5 ∧ t.sec.keysLive = false ∧
        t.mem = {} ∧ Answers t m 0x24 stOk causeNone { code := 0 }) ∧
      (s.tokenOk tok = false → t = s.emit (.mgmt m.path 0x24 m.tag (openStatus openSignature) causeNone { code := 0 })))) ∧
    Completes (.debugLock m) s (fun t => t.sec.dbgData = false ∧ t.sec.dbgMgmt = false ∧ t.sec.dbgUart = false ∧ t.sec.claimed = s.sec.claimed ∧
      Answers t m 0x25 stOk causeNone { code := 0 }) ∧
    exec (.debugLock { m with secured := false }) s = .next (s.emit (.mgmt m.path 0x25 m.tag stNoPermission causeSession { code := 0 }))

/-- Firmware (R317, R341, R345, R349, R352 to R355): PLDM's bytes go to the slot it names; an image that verifies becomes TRIAL and one that does not INVALID; activation resets into the trial;
a commit, and 600 s of a trial, make it ACTIVE; SetEventReceiver names the receiver of events; the watchdog, outside a trial, holds the levels; a mirror takes the next callboard entry. -/
def Obligations.FirmwareAndWatchdog : Prop :=
  ∀ (s : State), s.mgmtUp = true → s.mgmt.phase ≠ .recovery →
    (∀ slot off data, slot < 2 → slot ≠ s.mgmt.slot → s.mgmt.xfer = some (1, slot) → off = (s.nor slot).fw.length → off + data.length ≤ 33554432 →
      Completes (.componentTransfer 1 slot off data) s (fun t => (t.nor slot).fw = (s.nor slot).fw ++ data ∧ (t.nor slot).pb = (s.nor slot).pb ∧
        t.mgmt.xfer = some (1, slot) ∧ (∀ k, k ≠ slot → t.nor k = s.nor k) ∧ OnlyChanges [.mgmt] s t)) ∧
    (∀ slot, s.mgmt.xfer = some (1, slot) → s.fwOk (s.nor slot).fw = true →
      Completes (.verifyComplete 1 slot) s (fun t => (t.nor slot).fwSt = .trial ∧ (t.nor slot).tries = 0 ∧ (t.nor slot).fw = (s.nor slot).fw ∧ t.mgmt.xfer = none ∧
        t.outs.head? = some (.pldm { code := 0 }) ∧ t.mgmt.phase = s.mgmt.phase)) ∧
    (∀ slot, s.mgmt.xfer = some (1, slot) → s.fwOk (s.nor slot).fw = false →
      Completes (.verifyComplete 1 slot) s (fun t => (t.nor slot).fwSt = .invalid ∧ t.mgmt.xfer = none ∧ t.mgmt.phase = s.mgmt.phase)) ∧
    (∀ slot, slot < 2 → slot ≠ s.mgmt.slot → (s.nor slot).fwSt = .trial →
      Completes .activateFirmware s (fun t => t.mgmt.resetCause = 4 ∧ t.dataUp = false ∧ t.mem = {} ∧ t.sec.keysLive = false ∧ t.cld.sessions = [])) ∧
    (∀ m, Answerable s m → s.mgmt.trial = true → s.mgmt.upAt.isSome = true →
      Completes (.fwCommit m) s (fun t => (t.nor s.mgmt.slot).fwSt = .active ∧ t.mgmt.trial = false ∧ t.sec.fwSvn = max s.sec.fwSvn (s.nor s.mgmt.slot).svn ∧
        Answers t m 0x0A stOk causeNone { code := 0 })) ∧
    (∀ t0, s.mgmt.upAt = some t0 → s.mgmt.trial = true → t0 + 600 * mgmtHz ≤ s.clk.mgmt →
      Completes .trialCommitTimeout s (fun t => (t.nor s.mgmt.slot).fwSt = .active ∧ t.mgmt.trial = false ∧ t.sec.fwSvn = max s.sec.fwSvn (s.nor s.mgmt.slot).svn)) ∧
    (∀ e, exec (.setEventReceiver e) s = .next { s with mgmt := { s.mgmt with eventEid := some e } }) ∧
    (s.mgmt.trial = false → Completes .mgmtWatchdog s (fun t => t.pwr.held = true ∧ t.pwr.levelA = 38 ∧ t.pwr.levelB = 38 ∧ t.pwr.levelHub = 43 ∧
      t.mgmt.wdFires = s.mgmt.wdFires + 1 ∧ t.mgmt.logNext = (s.mgmt.logNext + 1) % 2 ^ 32 ∧ OnlyChanges [.pwr, .mgmt, .outs, .host, .dram] s t)) ∧
    (∀ e es, s.mgmt.xfer = none → (s.logFrom s.mgmt.mirrorNext.1).2 = e :: es →
      Completes (.callboardMirrorWrite 0) s (fun t => (t.nor 0).mirror.getLast? = some e ∧ (e.seq % 2048 ≠ 0 → (t.nor 0).mirror = (s.nor 0).mirror ++ [e]) ∧
        t.mgmt.mirrorNext.1 = (e.seq + 1) % 2 ^ 32 ∧ t.nor 1 = s.nor 1 ∧ t.mgmt.log = s.mgmt.log ∧ OnlyChanges [.mgmt] s t))

/-- Wings queues (R360 to R367): a stalled reader's packet is closed with a TRUNC word, a read whose data was closed is issued once more, and its operation is marked for TRUNCATED at the second close; the number that arrives discards the rest of that packet; a write of MARK within the capacity sets it;
a write of 1 to CROSSED clears it, unless a crossing takes place in that cycle; a hold that ends lets its queue go on. -/
def Obligations.WingsQueues : Prop :=
  (∀ (s : State) (q : Nat) (again : Bool), q < 120 → s.dataUp = true → s.qStalled q = true → (s.wqueue q).stallSince + s.stallCycles q ≤ (s.qReadClock q).1 →
    Completes (.wqStallClose q .other again) s (fun t => (t.wqueue q).trunc = (s.wqueue q).trunc + 1 ∧ (t.wqueue q).level = (s.wqueue q).level + 1 ∧
      (t.wqueue q).closed = (s.wqueue q).closed ++ [(s.wqueue q).wrPkt] ∧ t.outs.head? = some (.packetClosed q) ∧ ∀ k, k ≠ q → t.wqueue k = s.wqueue k)) ∧
  (∀ (s : State) (q op : Nat) (o : Op), 24 ≤ q → q < 120 → s.dataUp = true → s.qStalled q = true →
    (s.wqueue q).stallSince + s.stallCycles q ≤ (s.qReadClock q).1 → s.op? op = some o →
    Completes (.wqStallClose q (.operation op) false) s (fun t => ClosedUse.operation op ∈ (t.wqueue q).reissued ∧ t.disp = s.disp) ∧
    (ClosedUse.operation op ∈ (s.wqueue q).reissued →
      Completes (.wqStallClose q (.operation op) true) s (fun t => t.op? op = some { o with truncated := true }))) ∧
  (∀ (s : State) (q n : Nat) (rest : List Nat), (s.wqueue q).closed = n :: rest → n = (s.wqueue q).wrPkt → (s.wqueue q).heldBursts = [] →
    Completes (.wqPacketNumberArrival q) s (fun t => (t.wqueue q).closed = rest ∧ (t.wqueue q).orphan = true ∧ (t.wqueue q).discard = some n ∧ OnlyChanges [.wq] s t)) ∧
  (∀ (s : State) (q n : Nat) (rest : List Nat), (s.wqueue q).closed = n :: rest → n ≠ (s.wqueue q).wrPkt →
    exec (.wqPacketNumberArrival q) s = .next (s.modWq q (fun w => { w with closed := rest }))) ∧
  (∀ (s : State) (rq : Requester) (q v : Nat), q < 120 → s.mgmtUp = true → s.mgmt.phase ≠ .recovery → s.mgmtRights rq = true →
    Completes (.markWrite rq q v) s (fun t => (t.wqueue q).mark = (if 1 ≤ v ∧ v ≤ (qShape q).2.2.1 then v else (s.wqueue q).mark) ∧
      (t.wqueue q).crossed = (s.wqueue q).crossed ∧ OnlyChanges [.wq, .host] s t) ∧
    Completes (.crossedClear rq q false) s (fun t => (t.wqueue q).crossed = false ∧ (t.wqueue q).crossCount = (s.wqueue q).crossCount ∧ OnlyChanges [.wq, .host] s t) ∧
    Completes (.crossedClear rq q true) s (fun t => (t.wqueue q).crossed = true ∧ (t.wqueue q).crossCount = satAdd 0xFFFF (s.wqueue q).crossCount 1)) ∧
  (∀ (s : State) (q : Nat), (s.wqueue q).holding = true → (s.wqueue q).heldBursts = [] →
    (s.wqueue q).holdSince + bits (tabGet 0 s.wq.tstQ q) 47 32 * (s.qWriteClock q).2 / 100 ≤ (s.qWriteClock q).1 →
    Completes (.tstHoldEnd q) s (fun t => (t.wqueue q).holding = false ∧ (t.wqueue q).level = (s.wqueue q).level ∧ OnlyChanges [.wq] s t))

/-- A step takes the command at the front of the queue and answers what it does with the queue's rest. With no command waiting it idles (DESIGN CHOICE, log 1, the model's choice): no command's effect happens,
and only the clocks go on. -/
def Obligations.StepTakesFrontCommand : Prop :=
  (∀ (s : State) (c : Instr) (l : List Instr), step { s with pending := c :: l } = exec c { s with pending := l }) ∧
  ∀ (s : State), s.pending = [] → ∃ t, step s = .next t ∧ OnlyChanges [.clk] s t

/-- Every command answers a next state, whatever the state and its operands: the spec gives every command an effect or says that it is ignored. -/
def Obligations.EveryCommandAnswers : Prop := ∀ (c : Instr) (s : State), ∃ t, exec c s = .next t

/-- After a reset nothing waits, nothing is stored, no operation and no session exists, no rail is up and no trip is recorded, and the contents of both tiers are in canonical form. -/
def Obligations.ResetState : Prop :=
  MemoryOk State.reset ∧ State.reset.pending = [] ∧ State.reset.outs = [] ∧ State.reset.mem = {} ∧ State.reset.disp = {} ∧ State.reset.cld = {} ∧ State.reset.dataUp = false ∧
  State.reset.mgmt.log = [] ∧ State.reset.pwr.tripped = false ∧ State.reset.sec.dbgData = false ∧ State.reset.mgmt.timeKnown = false

/-- No step leaves the canonical form of the contents of either tier: addresses strictly rise and no byte listed is 0. -/
def Obligations.StepKeepsMemoryCanonical : Prop := ∀ (s t : State), MemoryOk s → step s = .next t → MemoryOk t
end

