-- ==== Sys2Proof/Laws/Coldon.lean ====
section
/-! SUPPORT. What the receive checks of Coldon let pass: one lemma for each way a frame is taken (R239, Table 10-7). -/

namespace Sys2Proof.Machine

/-- A frame of an established session that passes checks 1 to 8 is delivered. -/
theorem receive_of_session {s : State} {f : Frame} {m : ColdonMsg} {x : Sess} (hl : s.linkCheck f = none) (hh : f.headOk = true) (hd : f.dst = s.pb.moduleId)
    (he : f.enc = true) (ht : f.typ ≠ 0x03) (hs : s.cld.sessions.find? (fun x => x.lsid == f.session && x.peer == f.src) = some x)
    (hg : f.tagOk x.rxKey m = true) (hr : x.replayed f = false) : s.receive f m = s.deliver x f m := by
  simp [State.receive, State.receiveOn, hl, hh, hd, he, ht, hs, hg, hr]

/-- A frame without a session whose TYPE needs none, with a body that is well formed, is handed over as it is. -/
theorem receive_of_plain {s : State} {f : Frame} {m : ColdonMsg} (hl : s.linkCheck f = none) (hh : f.headOk = true) (hd : f.dst = s.pb.moduleId)
    (he : f.enc = false) (ht : (f.typ == 0x01 || f.typ == 0x02 || f.typ == 0x08) = true) (hb : f.bodyOk m = true) (hq : f.seqd = false) :
    s.receive f m = { s := s.modCport f.port (fun c => { c with rx := c.rx + 1 }), msgs := [m] } := by
  simp only [State.receive, hl, hh, hd, he, ht, hb, hq]
  simp

/-- FINISH of a half-open session under its key is handed over. -/
theorem receive_of_half {s : State} {f : Frame} {m : ColdonMsg} {h : HalfOpen} (hl : s.linkCheck f = none) (hh : f.headOk = true) (hd : f.dst = s.pb.moduleId)
    (he : f.enc = true) (ht : f.typ = 0x03) (hs : s.cld.half.find? (fun h => h.lsid == f.session && h.peer == f.src && h.responder) = some h)
    (hg : f.tagOk h.rxKey m = true) (hb : f.bodyOk m = true) (hq : f.seqd = false) :
    s.receive f m = { s := s.modCport f.port (fun c => { c with rx := c.rx + 1 }), msgs := [m] } := by
  simp [State.receive, hl, hh, hd, he, ht, hs, hg, hb, hq]

end Sys2Proof.Machine
end

