-- ==== Sys2Proof/Laws/Mem.lean ====
section
/-! SUPPORT. What the operations on memory, sets and tables do: read after write, the frame of a write, and that memory keeps its canonical form. -/

namespace Sys2Proof.Machine

/-! ### Reading -/

theorem memRead_append (m n : Memory) (a : Nat) :
    memRead (m ++ n) a = if m.any (fun c => c.1 == a) then memRead m a else memRead n a := by
  induction m with
  | nil => simp
  | cons c t ih => by_cases h : c.1 = a <;> simp [memRead, h, ih]

theorem memRead_unlisted (m : Memory) (a : Nat) (h : ∀ c ∈ m, c.1 ≠ a) : memRead m a = 0 := by
  induction m with
  | nil => rfl
  | cons c t ih =>
    simp only [memRead]
    rw [if_neg (h c (by simp)), ih (fun d hd => h d (by simp [hd]))]

theorem memRead_filter (m : Memory) (p : Nat → Bool) (a : Nat) :
    memRead (m.filter (fun c => p c.1)) a = if p a then memRead m a else 0 := by
  induction m with
  | nil => simp [memRead]
  | cons c t ih =>
    by_cases h : c.1 = a
    · subst h
      by_cases hp : p c.1
      · simp [hp, memRead]
      · simp [hp, ih]
    · by_cases hp : p c.1 <;> simp [hp, memRead, h, ih]

theorem cellsOf_bounds (base : Nat) (bs : Bytes) : ∀ c ∈ cellsOf base bs, base ≤ c.1 ∧ c.1 < base + bs.length := by
  induction bs generalizing base with
  | nil => simp [cellsOf]
  | cons b t ih =>
    intro c hc
    simp only [cellsOf] at hc
    split at hc
    · have := ih (base + 1) c hc
      simp only [List.length_cons]; omega
    · rcases List.mem_cons.1 hc with rfl | hc
      · simp
      · have := ih (base + 1) c hc
        simp only [List.length_cons]; omega

theorem memRead_cellsOf (base : Nat) (bs : Bytes) (a : Nat) :
    memRead (cellsOf base bs) a = if base ≤ a then bs.getD (a - base) 0 else 0 := by
  induction bs generalizing base with
  | nil => simp [cellsOf, memRead]
  | cons b t ih =>
    simp only [cellsOf]
    by_cases ha : a = base
    · subst ha
      split
      · next hb => rw [ih]; simp [hb]
      · simp [memRead]
    · have hstep : memRead (cellsOf (base + 1) t) a = if base ≤ a then (b :: t).getD (a - base) 0 else 0 := by
        rw [ih]
        by_cases h : base ≤ a
        · have h1 : base + 1 ≤ a := by omega
          obtain ⟨k, hk⟩ : ∃ k, a - base = k + 1 := ⟨a - base - 1, by omega⟩
          have hk2 : a - (base + 1) = k := by omega
          simp [h, h1, hk, hk2]
        · have h1 : ¬ base + 1 ≤ a := by omega
          simp [h, h1]
      split
      · exact hstep
      · simp only [memRead]
        rw [if_neg (fun h => ha h.symm), hstep]

/-- A replaced window reads as its new cells; every other address reads as before. -/
theorem memRead_memReplace (m w : Memory) (base n a : Nat) (hw : ∀ c ∈ w, base ≤ c.1 ∧ c.1 < base + n) :
    memRead (memReplace m base n w) a = if base ≤ a ∧ a < base + n then memRead w a else memRead m a := by
  unfold memReplace
  have hlo := memRead_filter m (fun x => decide (x < base)) a
  have hhi := memRead_filter m (fun x => decide (base + n ≤ x)) a
  rw [memRead_append, memRead_append]
  by_cases h1 : base ≤ a ∧ a < base + n
  · have e1 : (m.filter (fun c => decide (c.1 < base))).any (fun c => c.1 == a) = false := by
      simp only [List.any_eq_false, List.mem_filter]
      rintro c ⟨-, hc⟩; simp at hc ⊢; omega
    have e3 : memRead (m.filter (fun c => decide (base + n ≤ c.1))) a = 0 := by
      rw [hhi]; simp; omega
    rw [if_pos h1]
    by_cases hw' : (w.any fun c => c.1 == a) = true
    · simp [List.any_append, hw', e1]
    · have hz : memRead w a = 0 := memRead_unlisted w a (by
        intro c hc hca
        exact hw' (List.any_eq_true.2 ⟨c, hc, by simp [hca]⟩))
      have : ((m.filter (fun c => decide (c.1 < base))) ++ w).any (fun c => c.1 == a) = false := by
        rw [List.any_append, e1, Bool.false_or]
        exact Bool.eq_false_iff.2 hw'
      rw [this, e3, hz]; simp
  · have e2 : w.any (fun c => c.1 == a) = false := by
      simp only [List.any_eq_false]
      intro c hc; have := hw c hc; simp; omega
    rw [if_neg h1, List.any_append, e2, Bool.or_false]
    by_cases h2 : a < base
    · split
      · rw [hlo]; simp [h2]
      · next hn =>
        rw [hhi]
        have hz : memRead m a = 0 := memRead_unlisted m a (by
          intro c hc hca
          exact hn (List.any_eq_true.2 ⟨c, List.mem_filter.2 ⟨hc, by simp [hca, h2]⟩, by simp [hca]⟩))
        simp [hz]
    · have h3 : base + n ≤ a := by omega
      have e1 : (m.filter (fun c => decide (c.1 < base))).any (fun c => c.1 == a) = false := by
        simp only [List.any_eq_false, List.mem_filter]
        rintro c ⟨-, hc⟩; simp at hc ⊢; omega
      rw [e1]; simp [hhi, h3]

/-- Read after write: the written bytes at their addresses, everything else as before. -/
theorem memRead_memWrite (m : Memory) (base : Nat) (bs : Bytes) (a : Nat) :
    memRead (memWrite m base bs) a = if base ≤ a ∧ a < base + bs.length then bs.getD (a - base) 0 else memRead m a := by
  unfold memWrite
  rw [memRead_memReplace _ _ _ _ _ (cellsOf_bounds base bs), memRead_cellsOf]
  by_cases h : base ≤ a ∧ a < base + bs.length
  · rw [if_pos h, if_pos h, if_pos h.1]
  · rw [if_neg h, if_neg h]

theorem memRead_memClear (m : Memory) (base n a : Nat) :
    memRead (memClear m base n) a = if base ≤ a ∧ a < base + n then 0 else memRead m a := by
  unfold memClear
  rw [memRead_memReplace _ _ _ _ _ (by simp)]; rfl

theorem memBytes_eq (m : Memory) (base n : Nat) : memBytes m base n = (List.range n).map (fun i => memRead m (base + i)) := by
  unfold memBytes memWindow
  apply List.map_congr_left
  intro i hi
  have hw := memRead_filter m (fun x => decide (base ≤ x) && decide (x < base + n)) (base + i)
  have : i < n := List.mem_range.1 hi
  simp only [hw]; simp [this]

theorem memBytes_length (m : Memory) (base n : Nat) : (memBytes m base n).length = n := by simp [memBytes]

/-- The bytes just written are what is read back. -/
theorem memBytes_memWrite (m : Memory) (base : Nat) (bs : Bytes) : memBytes (memWrite m base bs) base bs.length = bs := by
  rw [memBytes_eq]
  apply List.ext_getElem
  · simp
  · intro i h1 h2
    have hi : i < bs.length := by simpa using h2
    simp [memRead_memWrite, hi]

/-- A write leaves every window that it does not meet as it was. -/
theorem memBytes_memWrite_off (m : Memory) (base : Nat) (bs : Bytes) (a n : Nat) (h : a + n ≤ base ∨ base + bs.length ≤ a) :
    memBytes (memWrite m base bs) a n = memBytes m a n := by
  rw [memBytes_eq, memBytes_eq]
  apply List.map_congr_left
  intro i hi
  have : i < n := List.mem_range.1 hi
  rw [memRead_memWrite, if_neg (by omega)]

theorem slice_length (bs : Bytes) (off n : Nat) : (slice bs off n).length = n := by
  simp [slice]

/-! ### Canonical form -/

theorem Memory.wf_cons (c : Host.Cell) (t : Memory) :
    Memory.wf (c :: t) = true ↔ c.2 ≠ 0 ∧ (∀ d ∈ t, c.1 < d.1) ∧ Memory.wf t = true := by
  simp [Memory.wf, and_assoc]

theorem Memory.wf_filter (m : Memory) (p : Host.Cell → Bool) (h : Memory.wf m = true) : Memory.wf (m.filter p) = true := by
  induction m with
  | nil => rfl
  | cons c t ih =>
    rw [Memory.wf_cons] at h
    by_cases hp : p c
    · rw [List.filter_cons_of_pos hp, Memory.wf_cons]
      exact ⟨h.1, fun d hd => h.2.1 d (List.mem_of_mem_filter hd), ih h.2.2⟩
    · rw [List.filter_cons_of_neg hp]; exact ih h.2.2

theorem Memory.wf_append (m n : Memory) (hm : Memory.wf m = true) (hn : Memory.wf n = true) (h : ∀ c ∈ m, ∀ d ∈ n, c.1 < d.1) :
    Memory.wf (m ++ n) = true := by
  induction m with
  | nil => exact hn
  | cons c t ih =>
    rw [Memory.wf_cons] at hm
    rw [List.cons_append, Memory.wf_cons]
    refine ⟨hm.1, ?_, ih hm.2.2 (fun c' hc' => h c' (by simp [hc']))⟩
    intro d hd
    rcases List.mem_append.1 hd with hd | hd
    · exact hm.2.1 d hd
    · exact h c (by simp) d hd

theorem cellsOf_wf (base : Nat) (bs : Bytes) : Memory.wf (cellsOf base bs) = true := by
  induction bs generalizing base with
  | nil => rfl
  | cons b t ih =>
    simp only [cellsOf]
    split
    · exact ih _
    · next hb =>
      rw [Memory.wf_cons]
      exact ⟨hb, fun d hd => by have := (cellsOf_bounds (base + 1) t d hd).1; show base < d.1; omega, ih _⟩

theorem memReplace_wf (m w : Memory) (base n : Nat) (hm : Memory.wf m = true) (hw : Memory.wf w = true)
    (hb : ∀ c ∈ w, base ≤ c.1 ∧ c.1 < base + n) : Memory.wf (memReplace m base n w) = true := by
  unfold memReplace
  refine Memory.wf_append _ _ (Memory.wf_append _ _ (Memory.wf_filter _ _ hm) hw ?_) (Memory.wf_filter _ _ hm) ?_
  · intro c hc d hd
    have h1 := (List.mem_filter.1 hc).2
    have := (hb d hd).1
    simp at h1; omega
  · intro c hc d hd
    have h2 := (List.mem_filter.1 hd).2
    simp at h2
    rcases List.mem_append.1 hc with hc | hc
    · have h1 := (List.mem_filter.1 hc).2
      simp at h1; omega
    · have := (hb c hc).2; omega

/-- Every operation on memory keeps the canonical form. -/
theorem memWrite_wf (m : Memory) (base : Nat) (bs : Bytes) (h : Memory.wf m = true) : Memory.wf (memWrite m base bs) = true :=
  memReplace_wf _ _ _ _ h (cellsOf_wf _ _) (cellsOf_bounds _ _)

theorem memClear_wf (m : Memory) (base n : Nat) (h : Memory.wf m = true) : Memory.wf (memClear m base n) = true :=
  memReplace_wf _ _ _ _ h rfl (by simp)

theorem memWindow_wf (m : Memory) (base n : Nat) (h : Memory.wf m = true) : Memory.wf (memWindow m base n) = true := Memory.wf_filter _ _ h

theorem memCopy_wf (src dst : Memory) (base n : Nat) (hs : Memory.wf src = true) (hd : Memory.wf dst = true) :
    Memory.wf (memCopy src dst base n) = true :=
  memReplace_wf _ _ _ _ hd (memWindow_wf _ _ _ hs) (by
    intro c hc
    have := (List.mem_filter.1 hc).2
    simpa using this)

/-! ### Sets -/

@[simp] theorem setHas_setAdd (s : NSet) (a b : Nat) : setHas (setAdd s a) b = (decide (b = a) || setHas s b) := by
  rw [Bool.eq_iff_iff]
  simp only [setHas, setAdd, List.any_eq_true, List.mem_append, List.mem_filter, Bool.or_eq_true, decide_eq_true_eq, beq_iff_eq, List.mem_singleton]
  constructor
  · rintro ⟨x, h, rfl⟩
    rcases h with (⟨h, -⟩ | rfl) | ⟨h, -⟩
    · exact .inr ⟨x, h, rfl⟩
    · exact .inl rfl
    · exact .inr ⟨x, h, rfl⟩
  · rintro (rfl | ⟨x, h, rfl⟩)
    · exact ⟨b, .inl (.inr rfl), rfl⟩
    · rcases Nat.lt_trichotomy x a with hlt | rfl | hgt
      · exact ⟨x, .inl (.inl ⟨h, hlt⟩), rfl⟩
      · exact ⟨x, .inl (.inr rfl), rfl⟩
      · exact ⟨x, .inr ⟨h, hgt⟩, rfl⟩

@[simp] theorem setHas_setDel (s : NSet) (a b : Nat) : setHas (setDel s a) b = (decide (b ≠ a) && setHas s b) := by
  rw [Bool.eq_iff_iff]
  simp only [setHas, setDel, List.any_eq_true, List.mem_filter, Bool.and_eq_true, decide_eq_true_eq, beq_iff_eq, bne_iff_ne]
  constructor
  · rintro ⟨x, ⟨h, hn⟩, rfl⟩; exact ⟨hn, x, h, rfl⟩
  · rintro ⟨hn, x, h, rfl⟩; exact ⟨x, ⟨h, hn⟩, rfl⟩

@[simp] theorem setHas_setPut (s : NSet) (a b : Nat) (on : Bool) : setHas (setPut s a on) b = if b = a then on else setHas s b := by
  unfold setPut
  by_cases h : b = a <;> cases on <;> simp [h]

@[simp] theorem setHas_setClear (s : NSet) (base n b : Nat) : setHas (setClear s base n) b = (!(decide (base ≤ b) && decide (b < base + n)) && setHas s b) := by
  rw [Bool.eq_iff_iff]
  simp only [setHas, setClear, List.any_eq_true, List.mem_filter, Bool.and_eq_true, Bool.or_eq_true, decide_eq_true_eq, beq_iff_eq, Bool.not_eq_true',
    Bool.and_eq_false_iff, decide_eq_false_iff_not]
  constructor
  · rintro ⟨x, ⟨h, hn⟩, rfl⟩; exact ⟨by omega, x, h, rfl⟩
  · rintro ⟨hn, x, h, rfl⟩; exact ⟨x, ⟨h, by omega⟩, rfl⟩

/-! ### Tables -/

theorem find_filter_key {β : Type} (t : Tab β) (p : Nat → Bool) (j : Nat) :
    (t.filter (fun e => p e.1)).find? (fun e => e.1 == j) = if p j then t.find? (fun e => e.1 == j) else none := by
  induction t with
  | nil => simp
  | cons c t ih =>
    by_cases hc : c.1 = j
    · subst hc
      by_cases hp : p c.1
      · simp [hp]
      · simp [hp, ih]
    · by_cases hp : p c.1 <;> simp [hp, hc, ih]

theorem tabFind_tabSet {β : Type} (t : Tab β) (i j : Nat) (v : β) : tabFind (tabSet t i v) j = if j = i then some v else tabFind t j := by
  have h1 := find_filter_key t (fun x => decide (x < i)) j
  have h2 := find_filter_key t (fun x => decide (i < x)) j
  unfold tabFind tabSet
  rw [List.find?_append, List.find?_append, h1, h2]
  rcases Nat.lt_trichotomy j i with h | h | h
  · have : ¬ i < j := by omega
    have hn : ¬ j = i := by omega
    have hm : ¬ i = j := by omega
    simp [h, this, hn, hm]
  · subst h; simp
  · have : ¬ j < i := by omega
    have hn : ¬ j = i := by omega
    have hm : ¬ i = j := by omega
    simp [h, this, hn, hm]

@[simp] theorem tabGet_tabSet {β : Type} (d : β) (t : Tab β) (i j : Nat) (v : β) : tabGet d (tabSet t i v) j = if j = i then v else tabGet d t j := by
  unfold tabGet
  rw [tabFind_tabSet]
  split <;> rfl

@[simp] theorem tabGet_tabMod {β : Type} (d : β) (t : Tab β) (i j : Nat) (f : β → β) :
    tabGet d (tabMod d t i f) j = if j = i then f (tabGet d t i) else tabGet d t j := by
  simp [tabMod]

theorem tabFind_tabDel {β : Type} (t : Tab β) (i j : Nat) : tabFind (tabDel t i) j = if j = i then none else tabFind t j := by
  have h := find_filter_key t (fun x => x != i) j
  unfold tabFind tabDel
  rw [h]
  by_cases hj : j = i <;> simp [hj]

@[simp] theorem tabGet_tabDel {β : Type} (d : β) (t : Tab β) (i j : Nat) : tabGet d (tabDel t i) j = if j = i then d else tabGet d t j := by
  unfold tabGet
  rw [tabFind_tabDel]
  split <;> rfl

end Sys2Proof.Machine
end

