-- ==== Sys2Proof/Laws/State.lean ====
section
/-! SUPPORT. What each update of State leaves alone, field by field, and what its own field reads afterwards. -/

namespace Sys2Proof.Machine

/-! ### emit -/

@[simp] theorem State.emit_pending (s : State) (o : Output) : (s.emit o).pending = s.pending := rfl
@[simp] theorem State.emit_free (s : State) (o : Output) : (s.emit o).free = s.free := rfl
@[simp] theorem State.emit_variant (s : State) (o : Output) : (s.emit o).variant = s.variant := rfl
@[simp] theorem State.emit_clk (s : State) (o : Output) : (s.emit o).clk = s.clk := rfl
@[simp] theorem State.emit_host (s : State) (o : Output) : (s.emit o).host = s.host := rfl
@[simp] theorem State.emit_parts (s : State) (o : Output) : (s.emit o).parts = s.parts := rfl
@[simp] theorem State.emit_disp (s : State) (o : Output) : (s.emit o).disp = s.disp := rfl
@[simp] theorem State.emit_mem (s : State) (o : Output) : (s.emit o).mem = s.mem := rfl
@[simp] theorem State.emit_gol (s : State) (o : Output) : (s.emit o).gol = s.gol := rfl
@[simp] theorem State.emit_cav (s : State) (o : Output) : (s.emit o).cav = s.cav := rfl
@[simp] theorem State.emit_cld (s : State) (o : Output) : (s.emit o).cld = s.cld := rfl
@[simp] theorem State.emit_bud (s : State) (o : Output) : (s.emit o).bud = s.bud := rfl
@[simp] theorem State.emit_dram (s : State) (o : Output) : (s.emit o).dram = s.dram := rfl
@[simp] theorem State.emit_ras (s : State) (o : Output) : (s.emit o).ras = s.ras := rfl
@[simp] theorem State.emit_pwr (s : State) (o : Output) : (s.emit o).pwr = s.pwr := rfl
@[simp] theorem State.emit_sec (s : State) (o : Output) : (s.emit o).sec = s.sec := rfl
@[simp] theorem State.emit_mgmt (s : State) (o : Output) : (s.emit o).mgmt = s.mgmt := rfl
@[simp] theorem State.emit_wq (s : State) (o : Output) : (s.emit o).wq = s.wq := rfl

/-! ### modPort -/

@[simp] theorem State.modPort_pending (s : State) (p : Nat) (f : Port → Port) : (s.modPort p f).pending = s.pending := rfl
@[simp] theorem State.modPort_outs (s : State) (p : Nat) (f : Port → Port) : (s.modPort p f).outs = s.outs := rfl
@[simp] theorem State.modPort_free (s : State) (p : Nat) (f : Port → Port) : (s.modPort p f).free = s.free := rfl
@[simp] theorem State.modPort_variant (s : State) (p : Nat) (f : Port → Port) : (s.modPort p f).variant = s.variant := rfl
@[simp] theorem State.modPort_clk (s : State) (p : Nat) (f : Port → Port) : (s.modPort p f).clk = s.clk := rfl
@[simp] theorem State.modPort_parts (s : State) (p : Nat) (f : Port → Port) : (s.modPort p f).parts = s.parts := rfl
@[simp] theorem State.modPort_disp (s : State) (p : Nat) (f : Port → Port) : (s.modPort p f).disp = s.disp := rfl
@[simp] theorem State.modPort_mem (s : State) (p : Nat) (f : Port → Port) : (s.modPort p f).mem = s.mem := rfl
@[simp] theorem State.modPort_gol (s : State) (p : Nat) (f : Port → Port) : (s.modPort p f).gol = s.gol := rfl
@[simp] theorem State.modPort_cav (s : State) (p : Nat) (f : Port → Port) : (s.modPort p f).cav = s.cav := rfl
@[simp] theorem State.modPort_cld (s : State) (p : Nat) (f : Port → Port) : (s.modPort p f).cld = s.cld := rfl
@[simp] theorem State.modPort_bud (s : State) (p : Nat) (f : Port → Port) : (s.modPort p f).bud = s.bud := rfl
@[simp] theorem State.modPort_dram (s : State) (p : Nat) (f : Port → Port) : (s.modPort p f).dram = s.dram := rfl
@[simp] theorem State.modPort_ras (s : State) (p : Nat) (f : Port → Port) : (s.modPort p f).ras = s.ras := rfl
@[simp] theorem State.modPort_pwr (s : State) (p : Nat) (f : Port → Port) : (s.modPort p f).pwr = s.pwr := rfl
@[simp] theorem State.modPort_sec (s : State) (p : Nat) (f : Port → Port) : (s.modPort p f).sec = s.sec := rfl
@[simp] theorem State.modPort_mgmt (s : State) (p : Nat) (f : Port → Port) : (s.modPort p f).mgmt = s.mgmt := rfl
@[simp] theorem State.modPort_wq (s : State) (p : Nat) (f : Port → Port) : (s.modPort p f).wq = s.wq := rfl

/-! ### modLd -/

@[simp] theorem State.modLd_pending (s : State) (i : Nat) (f : Ld → Ld) : (s.modLd i f).pending = s.pending := rfl
@[simp] theorem State.modLd_outs (s : State) (i : Nat) (f : Ld → Ld) : (s.modLd i f).outs = s.outs := rfl
@[simp] theorem State.modLd_free (s : State) (i : Nat) (f : Ld → Ld) : (s.modLd i f).free = s.free := rfl
@[simp] theorem State.modLd_variant (s : State) (i : Nat) (f : Ld → Ld) : (s.modLd i f).variant = s.variant := rfl
@[simp] theorem State.modLd_clk (s : State) (i : Nat) (f : Ld → Ld) : (s.modLd i f).clk = s.clk := rfl
@[simp] theorem State.modLd_parts (s : State) (i : Nat) (f : Ld → Ld) : (s.modLd i f).parts = s.parts := rfl
@[simp] theorem State.modLd_disp (s : State) (i : Nat) (f : Ld → Ld) : (s.modLd i f).disp = s.disp := rfl
@[simp] theorem State.modLd_mem (s : State) (i : Nat) (f : Ld → Ld) : (s.modLd i f).mem = s.mem := rfl
@[simp] theorem State.modLd_gol (s : State) (i : Nat) (f : Ld → Ld) : (s.modLd i f).gol = s.gol := rfl
@[simp] theorem State.modLd_cav (s : State) (i : Nat) (f : Ld → Ld) : (s.modLd i f).cav = s.cav := rfl
@[simp] theorem State.modLd_cld (s : State) (i : Nat) (f : Ld → Ld) : (s.modLd i f).cld = s.cld := rfl
@[simp] theorem State.modLd_bud (s : State) (i : Nat) (f : Ld → Ld) : (s.modLd i f).bud = s.bud := rfl
@[simp] theorem State.modLd_dram (s : State) (i : Nat) (f : Ld → Ld) : (s.modLd i f).dram = s.dram := rfl
@[simp] theorem State.modLd_ras (s : State) (i : Nat) (f : Ld → Ld) : (s.modLd i f).ras = s.ras := rfl
@[simp] theorem State.modLd_pwr (s : State) (i : Nat) (f : Ld → Ld) : (s.modLd i f).pwr = s.pwr := rfl
@[simp] theorem State.modLd_sec (s : State) (i : Nat) (f : Ld → Ld) : (s.modLd i f).sec = s.sec := rfl
@[simp] theorem State.modLd_mgmt (s : State) (i : Nat) (f : Ld → Ld) : (s.modLd i f).mgmt = s.mgmt := rfl
@[simp] theorem State.modLd_wq (s : State) (i : Nat) (f : Ld → Ld) : (s.modLd i f).wq = s.wq := rfl

/-! ### modPart -/

@[simp] theorem State.modPart_pending (s : State) (p : Nat) (f : Part → Part) : (s.modPart p f).pending = s.pending := rfl
@[simp] theorem State.modPart_outs (s : State) (p : Nat) (f : Part → Part) : (s.modPart p f).outs = s.outs := rfl
@[simp] theorem State.modPart_free (s : State) (p : Nat) (f : Part → Part) : (s.modPart p f).free = s.free := rfl
@[simp] theorem State.modPart_variant (s : State) (p : Nat) (f : Part → Part) : (s.modPart p f).variant = s.variant := rfl
@[simp] theorem State.modPart_clk (s : State) (p : Nat) (f : Part → Part) : (s.modPart p f).clk = s.clk := rfl
@[simp] theorem State.modPart_host (s : State) (p : Nat) (f : Part → Part) : (s.modPart p f).host = s.host := rfl
@[simp] theorem State.modPart_disp (s : State) (p : Nat) (f : Part → Part) : (s.modPart p f).disp = s.disp := rfl
@[simp] theorem State.modPart_mem (s : State) (p : Nat) (f : Part → Part) : (s.modPart p f).mem = s.mem := rfl
@[simp] theorem State.modPart_gol (s : State) (p : Nat) (f : Part → Part) : (s.modPart p f).gol = s.gol := rfl
@[simp] theorem State.modPart_cav (s : State) (p : Nat) (f : Part → Part) : (s.modPart p f).cav = s.cav := rfl
@[simp] theorem State.modPart_cld (s : State) (p : Nat) (f : Part → Part) : (s.modPart p f).cld = s.cld := rfl
@[simp] theorem State.modPart_bud (s : State) (p : Nat) (f : Part → Part) : (s.modPart p f).bud = s.bud := rfl
@[simp] theorem State.modPart_dram (s : State) (p : Nat) (f : Part → Part) : (s.modPart p f).dram = s.dram := rfl
@[simp] theorem State.modPart_ras (s : State) (p : Nat) (f : Part → Part) : (s.modPart p f).ras = s.ras := rfl
@[simp] theorem State.modPart_pwr (s : State) (p : Nat) (f : Part → Part) : (s.modPart p f).pwr = s.pwr := rfl
@[simp] theorem State.modPart_sec (s : State) (p : Nat) (f : Part → Part) : (s.modPart p f).sec = s.sec := rfl
@[simp] theorem State.modPart_mgmt (s : State) (p : Nat) (f : Part → Part) : (s.modPart p f).mgmt = s.mgmt := rfl
@[simp] theorem State.modPart_wq (s : State) (p : Nat) (f : Part → Part) : (s.modPart p f).wq = s.wq := rfl

/-! ### modRing -/

@[simp] theorem State.modRing_pending (s : State) (r : Nat) (f : Ring → Ring) : (s.modRing r f).pending = s.pending := rfl
@[simp] theorem State.modRing_outs (s : State) (r : Nat) (f : Ring → Ring) : (s.modRing r f).outs = s.outs := rfl
@[simp] theorem State.modRing_free (s : State) (r : Nat) (f : Ring → Ring) : (s.modRing r f).free = s.free := rfl
@[simp] theorem State.modRing_variant (s : State) (r : Nat) (f : Ring → Ring) : (s.modRing r f).variant = s.variant := rfl
@[simp] theorem State.modRing_clk (s : State) (r : Nat) (f : Ring → Ring) : (s.modRing r f).clk = s.clk := rfl
@[simp] theorem State.modRing_host (s : State) (r : Nat) (f : Ring → Ring) : (s.modRing r f).host = s.host := rfl
@[simp] theorem State.modRing_parts (s : State) (r : Nat) (f : Ring → Ring) : (s.modRing r f).parts = s.parts := rfl
@[simp] theorem State.modRing_mem (s : State) (r : Nat) (f : Ring → Ring) : (s.modRing r f).mem = s.mem := rfl
@[simp] theorem State.modRing_gol (s : State) (r : Nat) (f : Ring → Ring) : (s.modRing r f).gol = s.gol := rfl
@[simp] theorem State.modRing_cav (s : State) (r : Nat) (f : Ring → Ring) : (s.modRing r f).cav = s.cav := rfl
@[simp] theorem State.modRing_cld (s : State) (r : Nat) (f : Ring → Ring) : (s.modRing r f).cld = s.cld := rfl
@[simp] theorem State.modRing_bud (s : State) (r : Nat) (f : Ring → Ring) : (s.modRing r f).bud = s.bud := rfl
@[simp] theorem State.modRing_dram (s : State) (r : Nat) (f : Ring → Ring) : (s.modRing r f).dram = s.dram := rfl
@[simp] theorem State.modRing_ras (s : State) (r : Nat) (f : Ring → Ring) : (s.modRing r f).ras = s.ras := rfl
@[simp] theorem State.modRing_pwr (s : State) (r : Nat) (f : Ring → Ring) : (s.modRing r f).pwr = s.pwr := rfl
@[simp] theorem State.modRing_sec (s : State) (r : Nat) (f : Ring → Ring) : (s.modRing r f).sec = s.sec := rfl
@[simp] theorem State.modRing_mgmt (s : State) (r : Nat) (f : Ring → Ring) : (s.modRing r f).mgmt = s.mgmt := rfl
@[simp] theorem State.modRing_wq (s : State) (r : Nat) (f : Ring → Ring) : (s.modRing r f).wq = s.wq := rfl

/-! ### modSlot -/

@[simp] theorem State.modSlot_pending (s : State) (n : Nat) (f : GSlot → GSlot) : (s.modSlot n f).pending = s.pending := rfl
@[simp] theorem State.modSlot_outs (s : State) (n : Nat) (f : GSlot → GSlot) : (s.modSlot n f).outs = s.outs := rfl
@[simp] theorem State.modSlot_free (s : State) (n : Nat) (f : GSlot → GSlot) : (s.modSlot n f).free = s.free := rfl
@[simp] theorem State.modSlot_variant (s : State) (n : Nat) (f : GSlot → GSlot) : (s.modSlot n f).variant = s.variant := rfl
@[simp] theorem State.modSlot_clk (s : State) (n : Nat) (f : GSlot → GSlot) : (s.modSlot n f).clk = s.clk := rfl
@[simp] theorem State.modSlot_host (s : State) (n : Nat) (f : GSlot → GSlot) : (s.modSlot n f).host = s.host := rfl
@[simp] theorem State.modSlot_parts (s : State) (n : Nat) (f : GSlot → GSlot) : (s.modSlot n f).parts = s.parts := rfl
@[simp] theorem State.modSlot_disp (s : State) (n : Nat) (f : GSlot → GSlot) : (s.modSlot n f).disp = s.disp := rfl
@[simp] theorem State.modSlot_mem (s : State) (n : Nat) (f : GSlot → GSlot) : (s.modSlot n f).mem = s.mem := rfl
@[simp] theorem State.modSlot_cav (s : State) (n : Nat) (f : GSlot → GSlot) : (s.modSlot n f).cav = s.cav := rfl
@[simp] theorem State.modSlot_cld (s : State) (n : Nat) (f : GSlot → GSlot) : (s.modSlot n f).cld = s.cld := rfl
@[simp] theorem State.modSlot_bud (s : State) (n : Nat) (f : GSlot → GSlot) : (s.modSlot n f).bud = s.bud := rfl
@[simp] theorem State.modSlot_dram (s : State) (n : Nat) (f : GSlot → GSlot) : (s.modSlot n f).dram = s.dram := rfl
@[simp] theorem State.modSlot_ras (s : State) (n : Nat) (f : GSlot → GSlot) : (s.modSlot n f).ras = s.ras := rfl
@[simp] theorem State.modSlot_pwr (s : State) (n : Nat) (f : GSlot → GSlot) : (s.modSlot n f).pwr = s.pwr := rfl
@[simp] theorem State.modSlot_sec (s : State) (n : Nat) (f : GSlot → GSlot) : (s.modSlot n f).sec = s.sec := rfl
@[simp] theorem State.modSlot_mgmt (s : State) (n : Nat) (f : GSlot → GSlot) : (s.modSlot n f).mgmt = s.mgmt := rfl
@[simp] theorem State.modSlot_wq (s : State) (n : Nat) (f : GSlot → GSlot) : (s.modSlot n f).wq = s.wq := rfl

/-! ### modRegion -/

@[simp] theorem State.modRegion_pending (s : State) (r : Nat) (f : Region → Region) : (s.modRegion r f).pending = s.pending := rfl
@[simp] theorem State.modRegion_outs (s : State) (r : Nat) (f : Region → Region) : (s.modRegion r f).outs = s.outs := rfl
@[simp] theorem State.modRegion_free (s : State) (r : Nat) (f : Region → Region) : (s.modRegion r f).free = s.free := rfl
@[simp] theorem State.modRegion_variant (s : State) (r : Nat) (f : Region → Region) : (s.modRegion r f).variant = s.variant := rfl
@[simp] theorem State.modRegion_clk (s : State) (r : Nat) (f : Region → Region) : (s.modRegion r f).clk = s.clk := rfl
@[simp] theorem State.modRegion_host (s : State) (r : Nat) (f : Region → Region) : (s.modRegion r f).host = s.host := rfl
@[simp] theorem State.modRegion_parts (s : State) (r : Nat) (f : Region → Region) : (s.modRegion r f).parts = s.parts := rfl
@[simp] theorem State.modRegion_disp (s : State) (r : Nat) (f : Region → Region) : (s.modRegion r f).disp = s.disp := rfl
@[simp] theorem State.modRegion_mem (s : State) (r : Nat) (f : Region → Region) : (s.modRegion r f).mem = s.mem := rfl
@[simp] theorem State.modRegion_gol (s : State) (r : Nat) (f : Region → Region) : (s.modRegion r f).gol = s.gol := rfl
@[simp] theorem State.modRegion_cld (s : State) (r : Nat) (f : Region → Region) : (s.modRegion r f).cld = s.cld := rfl
@[simp] theorem State.modRegion_bud (s : State) (r : Nat) (f : Region → Region) : (s.modRegion r f).bud = s.bud := rfl
@[simp] theorem State.modRegion_dram (s : State) (r : Nat) (f : Region → Region) : (s.modRegion r f).dram = s.dram := rfl
@[simp] theorem State.modRegion_ras (s : State) (r : Nat) (f : Region → Region) : (s.modRegion r f).ras = s.ras := rfl
@[simp] theorem State.modRegion_pwr (s : State) (r : Nat) (f : Region → Region) : (s.modRegion r f).pwr = s.pwr := rfl
@[simp] theorem State.modRegion_sec (s : State) (r : Nat) (f : Region → Region) : (s.modRegion r f).sec = s.sec := rfl
@[simp] theorem State.modRegion_mgmt (s : State) (r : Nat) (f : Region → Region) : (s.modRegion r f).mgmt = s.mgmt := rfl
@[simp] theorem State.modRegion_wq (s : State) (r : Nat) (f : Region → Region) : (s.modRegion r f).wq = s.wq := rfl

/-! ### modCport -/

@[simp] theorem State.modCport_pending (s : State) (p : Nat) (f : CPort → CPort) : (s.modCport p f).pending = s.pending := rfl
@[simp] theorem State.modCport_outs (s : State) (p : Nat) (f : CPort → CPort) : (s.modCport p f).outs = s.outs := rfl
@[simp] theorem State.modCport_free (s : State) (p : Nat) (f : CPort → CPort) : (s.modCport p f).free = s.free := rfl
@[simp] theorem State.modCport_variant (s : State) (p : Nat) (f : CPort → CPort) : (s.modCport p f).variant = s.variant := rfl
@[simp] theorem State.modCport_clk (s : State) (p : Nat) (f : CPort → CPort) : (s.modCport p f).clk = s.clk := rfl
@[simp] theorem State.modCport_host (s : State) (p : Nat) (f : CPort → CPort) : (s.modCport p f).host = s.host := rfl
@[simp] theorem State.modCport_parts (s : State) (p : Nat) (f : CPort → CPort) : (s.modCport p f).parts = s.parts := rfl
@[simp] theorem State.modCport_disp (s : State) (p : Nat) (f : CPort → CPort) : (s.modCport p f).disp = s.disp := rfl
@[simp] theorem State.modCport_mem (s : State) (p : Nat) (f : CPort → CPort) : (s.modCport p f).mem = s.mem := rfl
@[simp] theorem State.modCport_gol (s : State) (p : Nat) (f : CPort → CPort) : (s.modCport p f).gol = s.gol := rfl
@[simp] theorem State.modCport_cav (s : State) (p : Nat) (f : CPort → CPort) : (s.modCport p f).cav = s.cav := rfl
@[simp] theorem State.modCport_bud (s : State) (p : Nat) (f : CPort → CPort) : (s.modCport p f).bud = s.bud := rfl
@[simp] theorem State.modCport_dram (s : State) (p : Nat) (f : CPort → CPort) : (s.modCport p f).dram = s.dram := rfl
@[simp] theorem State.modCport_ras (s : State) (p : Nat) (f : CPort → CPort) : (s.modCport p f).ras = s.ras := rfl
@[simp] theorem State.modCport_pwr (s : State) (p : Nat) (f : CPort → CPort) : (s.modCport p f).pwr = s.pwr := rfl
@[simp] theorem State.modCport_sec (s : State) (p : Nat) (f : CPort → CPort) : (s.modCport p f).sec = s.sec := rfl
@[simp] theorem State.modCport_mgmt (s : State) (p : Nat) (f : CPort → CPort) : (s.modCport p f).mgmt = s.mgmt := rfl
@[simp] theorem State.modCport_wq (s : State) (p : Nat) (f : CPort → CPort) : (s.modCport p f).wq = s.wq := rfl

/-! ### modRank -/

@[simp] theorem State.modRank_pending (s : State) (k : Nat) (f : Rank → Rank) : (s.modRank k f).pending = s.pending := rfl
@[simp] theorem State.modRank_outs (s : State) (k : Nat) (f : Rank → Rank) : (s.modRank k f).outs = s.outs := rfl
@[simp] theorem State.modRank_free (s : State) (k : Nat) (f : Rank → Rank) : (s.modRank k f).free = s.free := rfl
@[simp] theorem State.modRank_variant (s : State) (k : Nat) (f : Rank → Rank) : (s.modRank k f).variant = s.variant := rfl
@[simp] theorem State.modRank_clk (s : State) (k : Nat) (f : Rank → Rank) : (s.modRank k f).clk = s.clk := rfl
@[simp] theorem State.modRank_host (s : State) (k : Nat) (f : Rank → Rank) : (s.modRank k f).host = s.host := rfl
@[simp] theorem State.modRank_parts (s : State) (k : Nat) (f : Rank → Rank) : (s.modRank k f).parts = s.parts := rfl
@[simp] theorem State.modRank_disp (s : State) (k : Nat) (f : Rank → Rank) : (s.modRank k f).disp = s.disp := rfl
@[simp] theorem State.modRank_mem (s : State) (k : Nat) (f : Rank → Rank) : (s.modRank k f).mem = s.mem := rfl
@[simp] theorem State.modRank_gol (s : State) (k : Nat) (f : Rank → Rank) : (s.modRank k f).gol = s.gol := rfl
@[simp] theorem State.modRank_cav (s : State) (k : Nat) (f : Rank → Rank) : (s.modRank k f).cav = s.cav := rfl
@[simp] theorem State.modRank_cld (s : State) (k : Nat) (f : Rank → Rank) : (s.modRank k f).cld = s.cld := rfl
@[simp] theorem State.modRank_bud (s : State) (k : Nat) (f : Rank → Rank) : (s.modRank k f).bud = s.bud := rfl
@[simp] theorem State.modRank_dram (s : State) (k : Nat) (f : Rank → Rank) : (s.modRank k f).dram = s.dram := rfl
@[simp] theorem State.modRank_pwr (s : State) (k : Nat) (f : Rank → Rank) : (s.modRank k f).pwr = s.pwr := rfl
@[simp] theorem State.modRank_sec (s : State) (k : Nat) (f : Rank → Rank) : (s.modRank k f).sec = s.sec := rfl
@[simp] theorem State.modRank_mgmt (s : State) (k : Nat) (f : Rank → Rank) : (s.modRank k f).mgmt = s.mgmt := rfl
@[simp] theorem State.modRank_wq (s : State) (k : Nat) (f : Rank → Rank) : (s.modRank k f).wq = s.wq := rfl

/-! ### modNor -/

@[simp] theorem State.modNor_pending (s : State) (n : Nat) (f : Nor → Nor) : (s.modNor n f).pending = s.pending := rfl
@[simp] theorem State.modNor_outs (s : State) (n : Nat) (f : Nor → Nor) : (s.modNor n f).outs = s.outs := rfl
@[simp] theorem State.modNor_free (s : State) (n : Nat) (f : Nor → Nor) : (s.modNor n f).free = s.free := rfl
@[simp] theorem State.modNor_variant (s : State) (n : Nat) (f : Nor → Nor) : (s.modNor n f).variant = s.variant := rfl
@[simp] theorem State.modNor_clk (s : State) (n : Nat) (f : Nor → Nor) : (s.modNor n f).clk = s.clk := rfl
@[simp] theorem State.modNor_host (s : State) (n : Nat) (f : Nor → Nor) : (s.modNor n f).host = s.host := rfl
@[simp] theorem State.modNor_parts (s : State) (n : Nat) (f : Nor → Nor) : (s.modNor n f).parts = s.parts := rfl
@[simp] theorem State.modNor_disp (s : State) (n : Nat) (f : Nor → Nor) : (s.modNor n f).disp = s.disp := rfl
@[simp] theorem State.modNor_mem (s : State) (n : Nat) (f : Nor → Nor) : (s.modNor n f).mem = s.mem := rfl
@[simp] theorem State.modNor_gol (s : State) (n : Nat) (f : Nor → Nor) : (s.modNor n f).gol = s.gol := rfl
@[simp] theorem State.modNor_cav (s : State) (n : Nat) (f : Nor → Nor) : (s.modNor n f).cav = s.cav := rfl
@[simp] theorem State.modNor_cld (s : State) (n : Nat) (f : Nor → Nor) : (s.modNor n f).cld = s.cld := rfl
@[simp] theorem State.modNor_bud (s : State) (n : Nat) (f : Nor → Nor) : (s.modNor n f).bud = s.bud := rfl
@[simp] theorem State.modNor_dram (s : State) (n : Nat) (f : Nor → Nor) : (s.modNor n f).dram = s.dram := rfl
@[simp] theorem State.modNor_ras (s : State) (n : Nat) (f : Nor → Nor) : (s.modNor n f).ras = s.ras := rfl
@[simp] theorem State.modNor_pwr (s : State) (n : Nat) (f : Nor → Nor) : (s.modNor n f).pwr = s.pwr := rfl
@[simp] theorem State.modNor_sec (s : State) (n : Nat) (f : Nor → Nor) : (s.modNor n f).sec = s.sec := rfl
@[simp] theorem State.modNor_wq (s : State) (n : Nat) (f : Nor → Nor) : (s.modNor n f).wq = s.wq := rfl

/-! ### modWq -/

@[simp] theorem State.modWq_pending (s : State) (q : Nat) (f : WQueue → WQueue) : (s.modWq q f).pending = s.pending := rfl
@[simp] theorem State.modWq_outs (s : State) (q : Nat) (f : WQueue → WQueue) : (s.modWq q f).outs = s.outs := rfl
@[simp] theorem State.modWq_free (s : State) (q : Nat) (f : WQueue → WQueue) : (s.modWq q f).free = s.free := rfl
@[simp] theorem State.modWq_variant (s : State) (q : Nat) (f : WQueue → WQueue) : (s.modWq q f).variant = s.variant := rfl
@[simp] theorem State.modWq_clk (s : State) (q : Nat) (f : WQueue → WQueue) : (s.modWq q f).clk = s.clk := rfl
@[simp] theorem State.modWq_host (s : State) (q : Nat) (f : WQueue → WQueue) : (s.modWq q f).host = s.host := rfl
@[simp] theorem State.modWq_parts (s : State) (q : Nat) (f : WQueue → WQueue) : (s.modWq q f).parts = s.parts := rfl
@[simp] theorem State.modWq_disp (s : State) (q : Nat) (f : WQueue → WQueue) : (s.modWq q f).disp = s.disp := rfl
@[simp] theorem State.modWq_mem (s : State) (q : Nat) (f : WQueue → WQueue) : (s.modWq q f).mem = s.mem := rfl
@[simp] theorem State.modWq_gol (s : State) (q : Nat) (f : WQueue → WQueue) : (s.modWq q f).gol = s.gol := rfl
@[simp] theorem State.modWq_cav (s : State) (q : Nat) (f : WQueue → WQueue) : (s.modWq q f).cav = s.cav := rfl
@[simp] theorem State.modWq_cld (s : State) (q : Nat) (f : WQueue → WQueue) : (s.modWq q f).cld = s.cld := rfl
@[simp] theorem State.modWq_bud (s : State) (q : Nat) (f : WQueue → WQueue) : (s.modWq q f).bud = s.bud := rfl
@[simp] theorem State.modWq_dram (s : State) (q : Nat) (f : WQueue → WQueue) : (s.modWq q f).dram = s.dram := rfl
@[simp] theorem State.modWq_ras (s : State) (q : Nat) (f : WQueue → WQueue) : (s.modWq q f).ras = s.ras := rfl
@[simp] theorem State.modWq_pwr (s : State) (q : Nat) (f : WQueue → WQueue) : (s.modWq q f).pwr = s.pwr := rfl
@[simp] theorem State.modWq_sec (s : State) (q : Nat) (f : WQueue → WQueue) : (s.modWq q f).sec = s.sec := rfl
@[simp] theorem State.modWq_mgmt (s : State) (q : Nat) (f : WQueue → WQueue) : (s.modWq q f).mgmt = s.mgmt := rfl

/-! ### dropHeld -/

@[simp] theorem State.dropHeld_pending (s : State) (rq : Requester) (a : Nat) : (s.dropHeld rq a).pending = s.pending := rfl
@[simp] theorem State.dropHeld_outs (s : State) (rq : Requester) (a : Nat) : (s.dropHeld rq a).outs = s.outs := rfl
@[simp] theorem State.dropHeld_free (s : State) (rq : Requester) (a : Nat) : (s.dropHeld rq a).free = s.free := rfl
@[simp] theorem State.dropHeld_variant (s : State) (rq : Requester) (a : Nat) : (s.dropHeld rq a).variant = s.variant := rfl
@[simp] theorem State.dropHeld_clk (s : State) (rq : Requester) (a : Nat) : (s.dropHeld rq a).clk = s.clk := rfl
@[simp] theorem State.dropHeld_parts (s : State) (rq : Requester) (a : Nat) : (s.dropHeld rq a).parts = s.parts := rfl
@[simp] theorem State.dropHeld_disp (s : State) (rq : Requester) (a : Nat) : (s.dropHeld rq a).disp = s.disp := rfl
@[simp] theorem State.dropHeld_mem (s : State) (rq : Requester) (a : Nat) : (s.dropHeld rq a).mem = s.mem := rfl
@[simp] theorem State.dropHeld_gol (s : State) (rq : Requester) (a : Nat) : (s.dropHeld rq a).gol = s.gol := rfl
@[simp] theorem State.dropHeld_cav (s : State) (rq : Requester) (a : Nat) : (s.dropHeld rq a).cav = s.cav := rfl
@[simp] theorem State.dropHeld_cld (s : State) (rq : Requester) (a : Nat) : (s.dropHeld rq a).cld = s.cld := rfl
@[simp] theorem State.dropHeld_bud (s : State) (rq : Requester) (a : Nat) : (s.dropHeld rq a).bud = s.bud := rfl
@[simp] theorem State.dropHeld_dram (s : State) (rq : Requester) (a : Nat) : (s.dropHeld rq a).dram = s.dram := rfl
@[simp] theorem State.dropHeld_ras (s : State) (rq : Requester) (a : Nat) : (s.dropHeld rq a).ras = s.ras := rfl
@[simp] theorem State.dropHeld_pwr (s : State) (rq : Requester) (a : Nat) : (s.dropHeld rq a).pwr = s.pwr := rfl
@[simp] theorem State.dropHeld_sec (s : State) (rq : Requester) (a : Nat) : (s.dropHeld rq a).sec = s.sec := rfl
@[simp] theorem State.dropHeld_mgmt (s : State) (rq : Requester) (a : Nat) : (s.dropHeld rq a).mgmt = s.mgmt := rfl
@[simp] theorem State.dropHeld_wq (s : State) (rq : Requester) (a : Nat) : (s.dropHeld rq a).wq = s.wq := rfl

/-! ### pushLog -/

@[simp] theorem State.pushLog_pending (s : State) (e : LogEnt) : (s.pushLog e).pending = s.pending := by simp only [State.pushLog]
@[simp] theorem State.pushLog_outs (s : State) (e : LogEnt) : (s.pushLog e).outs = s.outs := by simp only [State.pushLog]
@[simp] theorem State.pushLog_free (s : State) (e : LogEnt) : (s.pushLog e).free = s.free := by simp only [State.pushLog]
@[simp] theorem State.pushLog_variant (s : State) (e : LogEnt) : (s.pushLog e).variant = s.variant := by simp only [State.pushLog]
@[simp] theorem State.pushLog_clk (s : State) (e : LogEnt) : (s.pushLog e).clk = s.clk := by simp only [State.pushLog]
@[simp] theorem State.pushLog_host (s : State) (e : LogEnt) : (s.pushLog e).host = s.host := by simp only [State.pushLog]
@[simp] theorem State.pushLog_parts (s : State) (e : LogEnt) : (s.pushLog e).parts = s.parts := by simp only [State.pushLog]
@[simp] theorem State.pushLog_disp (s : State) (e : LogEnt) : (s.pushLog e).disp = s.disp := by simp only [State.pushLog]
@[simp] theorem State.pushLog_mem (s : State) (e : LogEnt) : (s.pushLog e).mem = s.mem := by simp only [State.pushLog]
@[simp] theorem State.pushLog_gol (s : State) (e : LogEnt) : (s.pushLog e).gol = s.gol := by simp only [State.pushLog]
@[simp] theorem State.pushLog_cav (s : State) (e : LogEnt) : (s.pushLog e).cav = s.cav := by simp only [State.pushLog]
@[simp] theorem State.pushLog_cld (s : State) (e : LogEnt) : (s.pushLog e).cld = s.cld := by simp only [State.pushLog]
@[simp] theorem State.pushLog_bud (s : State) (e : LogEnt) : (s.pushLog e).bud = s.bud := by simp only [State.pushLog]
@[simp] theorem State.pushLog_dram (s : State) (e : LogEnt) : (s.pushLog e).dram = s.dram := by simp only [State.pushLog]
@[simp] theorem State.pushLog_ras (s : State) (e : LogEnt) : (s.pushLog e).ras = s.ras := by simp only [State.pushLog]
@[simp] theorem State.pushLog_pwr (s : State) (e : LogEnt) : (s.pushLog e).pwr = s.pwr := by simp only [State.pushLog]
@[simp] theorem State.pushLog_sec (s : State) (e : LogEnt) : (s.pushLog e).sec = s.sec := by simp only [State.pushLog]
@[simp] theorem State.pushLog_wq (s : State) (e : LogEnt) : (s.pushLog e).wq = s.wq := by simp only [State.pushLog]

/-! ### noPerm -/

@[simp] theorem State.noPerm_pending (s : State) (p : Nat) : (s.noPerm p).pending = s.pending := rfl
@[simp] theorem State.noPerm_outs (s : State) (p : Nat) : (s.noPerm p).outs = s.outs := rfl
@[simp] theorem State.noPerm_free (s : State) (p : Nat) : (s.noPerm p).free = s.free := rfl
@[simp] theorem State.noPerm_variant (s : State) (p : Nat) : (s.noPerm p).variant = s.variant := rfl
@[simp] theorem State.noPerm_clk (s : State) (p : Nat) : (s.noPerm p).clk = s.clk := rfl
@[simp] theorem State.noPerm_host (s : State) (p : Nat) : (s.noPerm p).host = s.host := rfl
@[simp] theorem State.noPerm_disp (s : State) (p : Nat) : (s.noPerm p).disp = s.disp := rfl
@[simp] theorem State.noPerm_mem (s : State) (p : Nat) : (s.noPerm p).mem = s.mem := rfl
@[simp] theorem State.noPerm_gol (s : State) (p : Nat) : (s.noPerm p).gol = s.gol := rfl
@[simp] theorem State.noPerm_cav (s : State) (p : Nat) : (s.noPerm p).cav = s.cav := rfl
@[simp] theorem State.noPerm_cld (s : State) (p : Nat) : (s.noPerm p).cld = s.cld := rfl
@[simp] theorem State.noPerm_bud (s : State) (p : Nat) : (s.noPerm p).bud = s.bud := rfl
@[simp] theorem State.noPerm_dram (s : State) (p : Nat) : (s.noPerm p).dram = s.dram := rfl
@[simp] theorem State.noPerm_ras (s : State) (p : Nat) : (s.noPerm p).ras = s.ras := rfl
@[simp] theorem State.noPerm_pwr (s : State) (p : Nat) : (s.noPerm p).pwr = s.pwr := rfl
@[simp] theorem State.noPerm_sec (s : State) (p : Nat) : (s.noPerm p).sec = s.sec := rfl
@[simp] theorem State.noPerm_mgmt (s : State) (p : Nat) : (s.noPerm p).mgmt = s.mgmt := rfl
@[simp] theorem State.noPerm_wq (s : State) (p : Nat) : (s.noPerm p).wq = s.wq := rfl

@[simp] theorem State.emit_outs (s : State) (o : Output) : (s.emit o).outs = o :: s.outs := rfl

/-! ### modCtl, charge, draw -/

@[simp] theorem State.modCtl_pending (s : State) (c : Ctl) (f : DCtl → DCtl) : (s.modCtl c f).pending = s.pending := by cases c <;> rfl
@[simp] theorem State.modCtl_outs (s : State) (c : Ctl) (f : DCtl → DCtl) : (s.modCtl c f).outs = s.outs := by cases c <;> rfl
@[simp] theorem State.modCtl_free (s : State) (c : Ctl) (f : DCtl → DCtl) : (s.modCtl c f).free = s.free := by cases c <;> rfl
@[simp] theorem State.modCtl_variant (s : State) (c : Ctl) (f : DCtl → DCtl) : (s.modCtl c f).variant = s.variant := by cases c <;> rfl
@[simp] theorem State.modCtl_clk (s : State) (c : Ctl) (f : DCtl → DCtl) : (s.modCtl c f).clk = s.clk := by cases c <;> rfl
@[simp] theorem State.modCtl_host (s : State) (c : Ctl) (f : DCtl → DCtl) : (s.modCtl c f).host = s.host := by cases c <;> rfl
@[simp] theorem State.modCtl_parts (s : State) (c : Ctl) (f : DCtl → DCtl) : (s.modCtl c f).parts = s.parts := by cases c <;> rfl
@[simp] theorem State.modCtl_disp (s : State) (c : Ctl) (f : DCtl → DCtl) : (s.modCtl c f).disp = s.disp := by cases c <;> rfl
@[simp] theorem State.modCtl_mem (s : State) (c : Ctl) (f : DCtl → DCtl) : (s.modCtl c f).mem = s.mem := by cases c <;> rfl
@[simp] theorem State.modCtl_gol (s : State) (c : Ctl) (f : DCtl → DCtl) : (s.modCtl c f).gol = s.gol := by cases c <;> rfl
@[simp] theorem State.modCtl_cav (s : State) (c : Ctl) (f : DCtl → DCtl) : (s.modCtl c f).cav = s.cav := by cases c <;> rfl
@[simp] theorem State.modCtl_cld (s : State) (c : Ctl) (f : DCtl → DCtl) : (s.modCtl c f).cld = s.cld := by cases c <;> rfl
@[simp] theorem State.modCtl_bud (s : State) (c : Ctl) (f : DCtl → DCtl) : (s.modCtl c f).bud = s.bud := by cases c <;> rfl
@[simp] theorem State.modCtl_ras (s : State) (c : Ctl) (f : DCtl → DCtl) : (s.modCtl c f).ras = s.ras := by cases c <;> rfl
@[simp] theorem State.modCtl_pwr (s : State) (c : Ctl) (f : DCtl → DCtl) : (s.modCtl c f).pwr = s.pwr := by cases c <;> rfl
@[simp] theorem State.modCtl_sec (s : State) (c : Ctl) (f : DCtl → DCtl) : (s.modCtl c f).sec = s.sec := by cases c <;> rfl
@[simp] theorem State.modCtl_mgmt (s : State) (c : Ctl) (f : DCtl → DCtl) : (s.modCtl c f).mgmt = s.mgmt := by cases c <;> rfl
@[simp] theorem State.modCtl_wq (s : State) (c : Ctl) (f : DCtl → DCtl) : (s.modCtl c f).wq = s.wq := by cases c <;> rfl
@[simp] theorem State.charge_pending (s : State) (cls pt act n : Nat) : (s.charge cls pt act n).pending = s.pending := by simp only [State.charge]; split <;> split <;> rfl
@[simp] theorem State.charge_outs (s : State) (cls pt act n : Nat) : (s.charge cls pt act n).outs = s.outs := by simp only [State.charge]; split <;> split <;> rfl
@[simp] theorem State.charge_free (s : State) (cls pt act n : Nat) : (s.charge cls pt act n).free = s.free := by simp only [State.charge]; split <;> split <;> rfl
@[simp] theorem State.charge_variant (s : State) (cls pt act n : Nat) : (s.charge cls pt act n).variant = s.variant := by simp only [State.charge]; split <;> split <;> rfl
@[simp] theorem State.charge_clk (s : State) (cls pt act n : Nat) : (s.charge cls pt act n).clk = s.clk := by simp only [State.charge]; split <;> split <;> rfl
@[simp] theorem State.charge_host (s : State) (cls pt act n : Nat) : (s.charge cls pt act n).host = s.host := by simp only [State.charge]; split <;> split <;> rfl
@[simp] theorem State.charge_parts (s : State) (cls pt act n : Nat) : (s.charge cls pt act n).parts = s.parts := by simp only [State.charge]; split <;> split <;> rfl
@[simp] theorem State.charge_disp (s : State) (cls pt act n : Nat) : (s.charge cls pt act n).disp = s.disp := by simp only [State.charge]; split <;> split <;> rfl
@[simp] theorem State.charge_mem (s : State) (cls pt act n : Nat) : (s.charge cls pt act n).mem = s.mem := by simp only [State.charge]; split <;> split <;> rfl
@[simp] theorem State.charge_gol (s : State) (cls pt act n : Nat) : (s.charge cls pt act n).gol = s.gol := by simp only [State.charge]; split <;> split <;> rfl
@[simp] theorem State.charge_cav (s : State) (cls pt act n : Nat) : (s.charge cls pt act n).cav = s.cav := by simp only [State.charge]; split <;> split <;> rfl
@[simp] theorem State.charge_cld (s : State) (cls pt act n : Nat) : (s.charge cls pt act n).cld = s.cld := by simp only [State.charge]; split <;> split <;> rfl
@[simp] theorem State.charge_dram (s : State) (cls pt act n : Nat) : (s.charge cls pt act n).dram = s.dram := by simp only [State.charge]; split <;> split <;> rfl
@[simp] theorem State.charge_ras (s : State) (cls pt act n : Nat) : (s.charge cls pt act n).ras = s.ras := by simp only [State.charge]; split <;> split <;> rfl
@[simp] theorem State.charge_pwr (s : State) (cls pt act n : Nat) : (s.charge cls pt act n).pwr = s.pwr := by simp only [State.charge]; split <;> split <;> rfl
@[simp] theorem State.charge_sec (s : State) (cls pt act n : Nat) : (s.charge cls pt act n).sec = s.sec := by simp only [State.charge]; split <;> split <;> rfl
@[simp] theorem State.charge_mgmt (s : State) (cls pt act n : Nat) : (s.charge cls pt act n).mgmt = s.mgmt := by simp only [State.charge]; split <;> split <;> rfl
@[simp] theorem State.charge_wq (s : State) (cls pt act n : Nat) : (s.charge cls pt act n).wq = s.wq := by simp only [State.charge]; split <;> split <;> rfl
@[simp] theorem State.draw_pending (s : State) : s.draw.2.pending = s.pending := rfl
@[simp] theorem State.draw_outs (s : State) : s.draw.2.outs = s.outs := rfl
@[simp] theorem State.draw_variant (s : State) : s.draw.2.variant = s.variant := rfl
@[simp] theorem State.draw_clk (s : State) : s.draw.2.clk = s.clk := rfl
@[simp] theorem State.draw_host (s : State) : s.draw.2.host = s.host := rfl
@[simp] theorem State.draw_parts (s : State) : s.draw.2.parts = s.parts := rfl
@[simp] theorem State.draw_disp (s : State) : s.draw.2.disp = s.disp := rfl
@[simp] theorem State.draw_mem (s : State) : s.draw.2.mem = s.mem := rfl
@[simp] theorem State.draw_gol (s : State) : s.draw.2.gol = s.gol := rfl
@[simp] theorem State.draw_cav (s : State) : s.draw.2.cav = s.cav := rfl
@[simp] theorem State.draw_cld (s : State) : s.draw.2.cld = s.cld := rfl
@[simp] theorem State.draw_bud (s : State) : s.draw.2.bud = s.bud := rfl
@[simp] theorem State.draw_dram (s : State) : s.draw.2.dram = s.dram := rfl
@[simp] theorem State.draw_ras (s : State) : s.draw.2.ras = s.ras := rfl
@[simp] theorem State.draw_pwr (s : State) : s.draw.2.pwr = s.pwr := rfl
@[simp] theorem State.draw_sec (s : State) : s.draw.2.sec = s.sec := rfl
@[simp] theorem State.draw_mgmt (s : State) : s.draw.2.mgmt = s.mgmt := rfl
@[simp] theorem State.draw_wq (s : State) : s.draw.2.wq = s.wq := rfl

/-! ### Entries after an update -/

@[simp] theorem State.port_emit (s : State) (o : Output) (k : Nat) : (s.emit o).port k = s.port k := rfl
@[simp] theorem State.ld_emit (s : State) (o : Output) (k : Nat) : (s.emit o).ld k = s.ld k := rfl
@[simp] theorem State.part_emit (s : State) (o : Output) (k : Nat) : (s.emit o).part k = s.part k := rfl
@[simp] theorem State.ring_emit (s : State) (o : Output) (k : Nat) : (s.emit o).ring k = s.ring k := rfl
@[simp] theorem State.slot_emit (s : State) (o : Output) (k : Nat) : (s.emit o).slot k = s.slot k := rfl
@[simp] theorem State.region_emit (s : State) (o : Output) (k : Nat) : (s.emit o).region k = s.region k := rfl
@[simp] theorem State.cport_emit (s : State) (o : Output) (k : Nat) : (s.emit o).cport k = s.cport k := rfl
@[simp] theorem State.rank_emit (s : State) (o : Output) (k : Nat) : (s.emit o).rank k = s.rank k := rfl
@[simp] theorem State.nor_emit (s : State) (o : Output) (k : Nat) : (s.emit o).nor k = s.nor k := rfl
@[simp] theorem State.wqueue_emit (s : State) (o : Output) (k : Nat) : (s.emit o).wqueue k = s.wqueue k := rfl
@[simp] theorem State.ctl_emit (s : State) (o : Output) (k : Ctl) : (s.emit o).ctl k = s.ctl k := by cases k <;> rfl
@[simp] theorem State.pb_emit (s : State) (o : Output) : (s.emit o).pb = s.pb := rfl

@[simp] theorem State.port_modPort (s : State) (p q : Nat) (f : Port → Port) : (s.modPort p f).port q = if q = p then f (s.port p) else s.port q := by
  simp [State.port, State.modPort]
@[simp] theorem State.ld_modLd (s : State) (i j : Nat) (f : Ld → Ld) : (s.modLd i f).ld j = if j = i then f (s.ld i) else s.ld j := by
  simp [State.ld, State.modLd]
@[simp] theorem State.port_modLd (s : State) (i q : Nat) (f : Ld → Ld) : (s.modLd i f).port q = s.port q := rfl
@[simp] theorem State.ld_modPort (s : State) (p i : Nat) (f : Port → Port) : (s.modPort p f).ld i = s.ld i := rfl
@[simp] theorem State.part_modPart (s : State) (p q : Nat) (f : Part → Part) : (s.modPart p f).part q = if q = p then f (s.part p) else s.part q := by
  simp [State.part, State.modPart]
@[simp] theorem State.ring_modRing (s : State) (r q : Nat) (f : Ring → Ring) : (s.modRing r f).ring q = if q = r then f (s.ring r) else s.ring q := by
  simp [State.ring, State.modRing]
@[simp] theorem State.slot_modSlot (s : State) (n m : Nat) (f : GSlot → GSlot) : (s.modSlot n f).slot m = if m = n then f (s.slot n) else s.slot m := by
  simp [State.slot, State.modSlot]
@[simp] theorem State.region_modRegion (s : State) (r q : Nat) (f : Region → Region) :
    (s.modRegion r f).region q = if q = r then f (s.region r) else s.region q := by
  simp [State.region, State.modRegion]
@[simp] theorem State.cport_modCport (s : State) (p q : Nat) (f : CPort → CPort) : (s.modCport p f).cport q = if q = p then f (s.cport p) else s.cport q := by
  simp [State.cport, State.modCport]
@[simp] theorem State.rank_modRank (s : State) (k j : Nat) (f : Rank → Rank) : (s.modRank k f).rank j = if j = k then f (s.rank k) else s.rank j := by
  simp [State.rank, State.modRank]
@[simp] theorem State.nor_modNor (s : State) (n m : Nat) (f : Nor → Nor) : (s.modNor n f).nor m = if m = n then f (s.nor n) else s.nor m := by
  simp [State.nor, State.modNor]
@[simp] theorem State.wqueue_modWq (s : State) (q r : Nat) (f : WQueue → WQueue) : (s.modWq q f).wqueue r = if r = q then f (s.wqueue q) else s.wqueue r := by
  simp [State.wqueue, State.modWq]
theorem State.ctl_modCtl (s : State) (c d : Ctl) (f : DCtl → DCtl) : (s.modCtl c f).ctl d = if d = c then f (s.ctl c) else s.ctl d := by
  cases c <;> cases d <;> simp [State.ctl, State.modCtl]
@[simp] theorem State.ctl_modCtl_same (s : State) (c : Ctl) (f : DCtl → DCtl) : (s.modCtl c f).ctl c = f (s.ctl c) := by
  simp [State.ctl_modCtl]

end Sys2Proof.Machine
end

