-- ==== Sys2Proof/Laws/Grants.lean ====
section
/-! SUPPORT. What the grants of a point leave alone, and the request that waits alone is granted (R246). -/

namespace Sys2Proof.Machine

/-! ### served -/

@[simp] theorem State.served_pending (s : State) (cls pt act : Nat) : (s.served cls pt act).pending = s.pending := rfl
@[simp] theorem State.served_outs (s : State) (cls pt act : Nat) : (s.served cls pt act).outs = s.outs := rfl
@[simp] theorem State.served_free (s : State) (cls pt act : Nat) : (s.served cls pt act).free = s.free := rfl
@[simp] theorem State.served_variant (s : State) (cls pt act : Nat) : (s.served cls pt act).variant = s.variant := rfl
@[simp] theorem State.served_clk (s : State) (cls pt act : Nat) : (s.served cls pt act).clk = s.clk := rfl
@[simp] theorem State.served_host (s : State) (cls pt act : Nat) : (s.served cls pt act).host = s.host := rfl
@[simp] theorem State.served_parts (s : State) (cls pt act : Nat) : (s.served cls pt act).parts = s.parts := rfl
@[simp] theorem State.served_disp (s : State) (cls pt act : Nat) : (s.served cls pt act).disp = s.disp := rfl
@[simp] theorem State.served_mem (s : State) (cls pt act : Nat) : (s.served cls pt act).mem = s.mem := rfl
@[simp] theorem State.served_gol (s : State) (cls pt act : Nat) : (s.served cls pt act).gol = s.gol := rfl
@[simp] theorem State.served_cav (s : State) (cls pt act : Nat) : (s.served cls pt act).cav = s.cav := rfl
@[simp] theorem State.served_cld (s : State) (cls pt act : Nat) : (s.served cls pt act).cld = s.cld := rfl
@[simp] theorem State.served_dram (s : State) (cls pt act : Nat) : (s.served cls pt act).dram = s.dram := rfl
@[simp] theorem State.served_ras (s : State) (cls pt act : Nat) : (s.served cls pt act).ras = s.ras := rfl
@[simp] theorem State.served_pwr (s : State) (cls pt act : Nat) : (s.served cls pt act).pwr = s.pwr := rfl
@[simp] theorem State.served_sec (s : State) (cls pt act : Nat) : (s.served cls pt act).sec = s.sec := rfl
@[simp] theorem State.served_mgmt (s : State) (cls pt act : Nat) : (s.served cls pt act).mgmt = s.mgmt := rfl
@[simp] theorem State.served_wq (s : State) (cls pt act : Nat) : (s.served cls pt act).wq = s.wq := rfl
@[simp] theorem State.useAt_served (s : State) (cls pt act c q a : Nat) : (s.served cls pt act).useAt c q a = s.useAt c q a := rfl

/-! ### setXlateMa -/

@[simp] theorem State.setXlateMa_pending (s : State) (pair v : Nat) : (s.setXlateMa pair v).pending = s.pending := rfl
@[simp] theorem State.setXlateMa_outs (s : State) (pair v : Nat) : (s.setXlateMa pair v).outs = s.outs := rfl
@[simp] theorem State.setXlateMa_free (s : State) (pair v : Nat) : (s.setXlateMa pair v).free = s.free := rfl
@[simp] theorem State.setXlateMa_variant (s : State) (pair v : Nat) : (s.setXlateMa pair v).variant = s.variant := rfl
@[simp] theorem State.setXlateMa_clk (s : State) (pair v : Nat) : (s.setXlateMa pair v).clk = s.clk := rfl
@[simp] theorem State.setXlateMa_host (s : State) (pair v : Nat) : (s.setXlateMa pair v).host = s.host := rfl
@[simp] theorem State.setXlateMa_parts (s : State) (pair v : Nat) : (s.setXlateMa pair v).parts = s.parts := rfl
@[simp] theorem State.setXlateMa_disp (s : State) (pair v : Nat) : (s.setXlateMa pair v).disp = s.disp := rfl
@[simp] theorem State.setXlateMa_mem (s : State) (pair v : Nat) : (s.setXlateMa pair v).mem = s.mem := rfl
@[simp] theorem State.setXlateMa_gol (s : State) (pair v : Nat) : (s.setXlateMa pair v).gol = s.gol := rfl
@[simp] theorem State.setXlateMa_cav (s : State) (pair v : Nat) : (s.setXlateMa pair v).cav = s.cav := rfl
@[simp] theorem State.setXlateMa_cld (s : State) (pair v : Nat) : (s.setXlateMa pair v).cld = s.cld := rfl
@[simp] theorem State.setXlateMa_bud (s : State) (pair v : Nat) : (s.setXlateMa pair v).bud = s.bud := rfl
@[simp] theorem State.setXlateMa_ras (s : State) (pair v : Nat) : (s.setXlateMa pair v).ras = s.ras := rfl
@[simp] theorem State.setXlateMa_pwr (s : State) (pair v : Nat) : (s.setXlateMa pair v).pwr = s.pwr := rfl
@[simp] theorem State.setXlateMa_sec (s : State) (pair v : Nat) : (s.setXlateMa pair v).sec = s.sec := rfl
@[simp] theorem State.setXlateMa_mgmt (s : State) (pair v : Nat) : (s.setXlateMa pair v).mgmt = s.mgmt := rfl
@[simp] theorem State.setXlateMa_wq (s : State) (pair v : Nat) : (s.setXlateMa pair v).wq = s.wq := rfl
@[simp] theorem State.setXlateMa_xlateMa (s : State) (pair v : Nat) : ((s.setXlateMa pair v).ctl (.deep pair)).xlateMa = v % 2 ^ 46 := by
  simp [State.setXlateMa]

/-! ### The priority rule -/

/-- Of one activity that waits, it is the one that is granted. -/
theorem State.grantee_alone (s : State) (cls pt act : Nat) (panic : Bool) : s.grantee cls pt [(act, panic)] = some act := by
  simp [State.grantee]

/-- A request is granted at once at a pair where none waits. -/
theorem State.deepTurn_alone {s : State} {a : DeepAsk} (h : s.deepAsks (pairOfBlk (a.line / 64)) = []) : s.deepTurn a = true := by
  simp [State.deepTurn, h, State.grantee_alone]

/-- A request of an activity whose use has not reached its share is not best-effort (Table 11-3). -/
theorem State.levelOf_pos {s : State} {cls pt act : Nat} (h : s.useAt cls pt act < s.shareAt cls pt act) (panic : Bool) : 0 < s.levelOf cls pt act panic := by
  simp only [State.levelOf, h, if_true]
  split
  · omega
  · split <;> omega

end Sys2Proof.Machine
end

