-- ==== Sys2Proof/WellFormed.lean ====
section
/-! DEFINITION. Well-formed commands: every operand lies within the width or the range that the spec gives it. `Machine.exec` is total and does not rely on it. -/

namespace Sys2Proof

/-! ### Checks of one operand -/

/-- A field of `n` bits. -/
def wBits (n v : Nat) : Bool := decide (v < 2 ^ n)

/-- A number below a count of the module's parts: ports 8, LDs 16, partitions 64, rings 4,096, queues 120. -/
def wBelow (n v : Nat) : Bool := decide (v < n)

/-- Exactly `n` bytes. -/
def wBytes (n : Nat) (b : Bytes) : Bool := b.length == n

/-- A CXL.mem address: 64-byte aligned, 52 bits. -/
def wHpa (a : Nat) : Bool := wBits 52 a && a % 64 == 0

/-- Whole lines of data, `n` of them. -/
def wLines (n : Nat) (b : Bytes) : Bool := decide (1 ≤ n) && decide (n ≤ 128) && b.length == 64 * n

def wLd (port ld : Nat) : Bool := wBelow 8 port && wBelow 16 ld

def wRequester (r : Requester) : Bool :=
  match r with
  | .ld p l => wLd p l
  | _ => true

/-- Whole values have 64 bits, halves 32 (R12). -/
def wAccess (a : Access64) : Bool :=
  match a with
  | .full v => wBits 64 v
  | .lower v => wBits 32 v
  | .upper v => wBits 32 v

/-- A part that the module has (Tables 1-1, 1-2). -/
def wUnit (u : UnitId) : Bool :=
  match u with
  | .matrix n => wBelow 256 n
  | .operandExpander n => wBelow 256 n
  | .vector n => wBelow 64 n
  | .scalar n => wBelow 64 n
  | .nearCtl n => wBelow 16 n
  | .deepCtl n => wBelow 16 n
  | .egressExpander n => wBelow 8 n
  | .cxlPort n => wBelow 8 n
  | .coldonPort n => wBelow 4 n
  | .cluster n => wBelow 64 n
  | .region n => wBelow 8 n
  | .dieA => true
  | .dieB => true
  | .hub => true

def wCtl (c : Ctl) : Bool :=
  match c with
  | .deep p => wBelow 8 p
  | .near n => wBelow 16 n

/-- A symbol error: an 8-bit value that is not 0. -/
def wErr (e : SymErr) : Bool := wBits 8 e.val && e.val != 0

def wErrs (es : List SymErr) : Bool := es.all wErr

def wBurst (b : QBurst) : Bool := wBelow 120 b.q

def wStream (s : IdeStream) : Bool :=
  match s with
  | .selective n => wBelow 4 n
  | _ => true

def wEp (e : SpdmEp) : Bool :=
  match e with
  | .doe p l => wLd p l
  | .mctp => true

def wFm (p : FmPath) : Bool :=
  match p with
  | .fmLd q => wBelow 8 q
  | .i3c q => wBelow 8 q
  | .other q l => wLd q l

def wMgmt (m : MgmtHdr) : Bool :=
  wBits 16 m.tag && (match m.path with
    | .i3c => true
    | .cxlFm p => wBelow 8 p
    | .cxlLd p l => wLd p l)

def wMsix (a : MsixAct) : Bool :=
  match a with
  | .maskEntry v _ => wBelow 64 v
  | _ => true

/-- The header fields of a Coldon frame (Table 10-3). -/
def wFrame (f : Frame) : Bool :=
  wBelow 4 f.port && wBits 128 f.srcIp && wBits 4 f.version && wBits 16 f.session && wBits 32 f.seq && wBits 32 f.ack && wBits 16 f.len &&
    wBits 16 f.udpLen && wBits 16 f.credit && wBits 16 f.src && wBits 16 f.dst && wBits 8 f.txc && wBits 32 f.hchk

def wHello (b : HelloBody) : Bool := wBelow 16384 b.moduleId && wBits 16 b.lsid

def wBad (b : Option IdeStream) : Bool :=
  match b with
  | some st => wStream st && st != .cachemem
  | none => true

/-- A requester and the stream whose MAC fails. -/
def wVia (r : ReqVia) : Bool := wRequester r.rq && wBad r.badMac

/-- A tick carries 96 sensors and 24 rail monitors. -/
def wTick (t : TickInput) : Bool := t.temps.length == 96 && t.rails.length == 24

/-! ### Commands -/

/-- Every operand of a command is within its width or range. -/
def wellFormed (i : Instr) : Bool :=
  match i with
  | .registerWrite r a n v => wVia r && wBits 64 a && wBits 16 n && wBits 64 v
  | .rcRead r a n _ => wVia r && wBits 64 a && wBits 16 n
  | .halfReadLatch r a => wVia r && wBits 64 a
  | .unitFailure u => wUnit u
  | .d2dReplay _ _ => true
  | .d2dLinkDown _ _ => true
  | .hopReplay u _ => wUnit u
  | .hopFailed u => wUnit u
  | .windowBoundary c p _ m => wBelow 6 c && wBelow 64 p && m.all (fun x => wBelow 3 x.1)
  | .admissionWindow => true
  | .deepReadReturn _ es => wErrs es
  | .mergeBufferWrite p es => wBelow 8 p && wErrs es
  | .egressExpansionDone p _ => wBelow 8 p
  | .linkTraining p r _ _ => wBelow 8 p && [8, 16, 32, 64].contains r
  | .linkUp p => wBelow 8 p
  | .linkRetrain p r _ => wBelow 8 p && [8, 16, 32, 64].contains r
  | .linkDown p => wBelow 8 p
  | .perstNAssert p => wBelow 8 p
  | .hotReset p => wBelow 8 p
  | .functionLevelReset p l => wLd p l
  | .msixUnmask p l a => wLd p l && wMsix a
  | .hdmDecoderCommit p l i _ _ _ _ _ _ => wLd p l && wBelow 8 i
  | .memrd p l t a _ _ es _ q => wLd p l && wBits 16 t && wHpa a && wErrs es && q.all wBurst
  | .memspecrd f l a => wLd f.port l && wHpa a
  | .meminv f l t a _ => wLd f.port l && wBits 16 t && wHpa a
  | .memclnevct f l t a => wLd f.port l && wBits 16 t && wHpa a
  | .memwr p l t a _ _ d _ => wLd p l && wBits 16 t && wHpa a && wBytes 64 d
  | .memwrptl f l t a _ d m _ => wLd f.port l && wBits 16 t && wHpa a && wBytes 64 d && m.length == 64
  | .birsp f l _ _ wb => wLd f.port l && (match wb with | some x => wBytes 64 x.1 | none => true)
  | .biconflict f l _ => wLd f.port l
  | .biTimeout p l _ => wLd p l
  | .ideKmKeyProg p st _ k => wBelow 8 p && wStream st && wBelow 2 k
  | .ideKeySetChange p st => wBelow 8 p && wStream st
  | .doeDiscovery p l i => wLd p l && wBits 8 i
  | .cdatTableAccess p l e => wLd p l && wBits 16 e
  | .doeUnknownObject p l v t => wLd p l && wBits 16 v && wBits 8 t
  | .getVersion ep => wEp ep
  | .getCapabilities ep => wEp ep
  | .negotiateAlgorithms ep a h d e => wEp ep && wBits 32 a && wBits 32 h && wBits 16 d && wBits 16 e
  | .getCertificate ep sl o n => wEp ep && wBelow 8 sl && wBits 16 o && wBits 16 n
  | .challenge ep sl _ => wEp ep && wBelow 8 sl
  | .getMeasurements ep i _ _ => wEp ep && wBits 8 i
  | .keyExchange ep r _ => wEp ep && wBits 16 r
  | .spdmFinish ep _ _ => wEp ep
  | .heartbeat ep _ => wEp ep
  | .keyUpdate ep _ => wEp ep
  | .endSession ep _ => wEp ep
  | .getLdInfo p => wFm p
  | .getLdAllocations p => wFm p
  | .setLdAllocations p _ => wFm p
  | .getQosControl p => wFm p
  | .setQosControl p => wFm p
  | .getQosStatus p => wFm p
  | .getQosAllocatedBw p => wFm p
  | .setQosAllocatedBw p => wFm p
  | .getQosBwLimit p => wFm p
  | .setQosBwLimit p => wFm p
  | .identify p l => wLd p l
  | .backgroundOperationStatus p l => wLd p l
  | .getResponseMessageLimit p l => wLd p l
  | .getEventRecords p l g _ => wLd p l && wBits 8 g
  | .clearEventRecords p l g h => wLd p l && wBits 8 g && h.all (wBits 17)
  | .getEventInterruptPolicy p l => wLd p l
  | .setEventInterruptPolicy p l b => wLd p l && b.length == 4
  | .getFwInfo p l => wLd p l
  | .transferFw p l => wLd p l
  | .activateFw p l => wLd p l
  | .getTimestamp p l => wLd p l
  | .setTimestamp p l => wLd p l
  | .getSupportedLogs p l => wLd p l
  | .getLog p l _ _ _ => wLd p l
  | .getLogCapabilities p l _ => wLd p l
  | .clearLog p l _ => wLd p l
  | .identifyMemoryDevice p l => wLd p l
  | .getPartitionInfo p l => wLd p l
  | .setPartitionInfo p l => wLd p l
  | .getLsa p l => wLd p l
  | .setLsa p l => wLd p l
  | .getHealthInfo p l => wLd p l
  | .getAlertConfiguration p l => wLd p l
  | .setAlertConfiguration p l t c => wLd p l && wBits 16 t && wBits 16 c
  | .getShutdownState p l => wLd p l
  | .setShutdownState p l => wLd p l
  | .getPoisonList p l a n => wLd p l && wBits 64 a && wBits 64 n
  | .injectPoison p l a => wLd p l && wBits 64 a
  | .clearPoison p l a d => wLd p l && wBits 64 a && wBytes 64 d
  | .getScanMediaCapabilities p l a n => wLd p l && wBits 64 a && wBits 64 n
  | .scanMedia p l a n => wLd p l && wBits 64 a && wBits 64 n
  | .getScanMediaResults p l => wLd p l
  | .sanitize p l => wLd p l
  | .secureErase p l => wLd p l
  | .getSecurityState p l => wLd p l
  | .setPassphrase p l => wLd p l
  | .disablePassphrase p l => wLd p l
  | .unlock p l => wLd p l
  | .freezeSecurityState p l => wLd p l
  | .passphraseSecureErase p l => wLd p l
  | .unsupportedOpcode p l o => wLd p l && wBits 16 o
  | .backgroundCommandDone p es => wBelow 64 p && wErrs es
  | .partReset p l v => wLd p l && wBits 32 v
  | .partitionResetComplete p => wBelow 64 p
  | .sqTailWrite p l r v => wLd p l && wBelow 4096 r && wBits 32 v
  | .cqHeadWrite p l r v => wLd p l && wBelow 4096 r && wBits 32 v
  | .ringReset p l r v => wLd p l && wBelow 4096 r && wBits 32 v
  | .ringResetEnd r => wBelow 4096 r
  | .ringIntMaskWrite p l r v => wLd p l && wBelow 4096 r && wBits 32 v
  | .descriptorFetch => true
  | .operationFinish _ => true
  | .coalTimeExpiry p l v => wLd p l && wBelow 64 v
  | .nop _ => true
  | .fence _ => true
  | .copy _ => true
  | .fill _ => true
  | .seal _ => true
  | .sealAdmit _ => true
  | .sealBlockReplace _ => true
  | .unseal _ => true
  | .place _ => true
  | .prefetch _ => true
  | .gemm _ => true
  | .recipe _ => true
  | .optim _ => true
  | .reduce _ => true
  | .joinTimeout _ => true
  | .gather _ => true
  | .scatterAdd _ => true
  | .simsearch _ => true
  | .publish _ => true
  | .acquire _ => true
  | .release _ => true
  | .counters _ => true
  | .tierHintWrite p l n v => wLd p l && wBelow 256 n && wBits 32 v
  | .evict p l n v => wLd p l && wBelow 256 n && wBits 32 v
  | .evictDone p n => wBelow 64 p && wBelow 256 n
  | .cueCurtain p l v => wLd p l && wBits 32 v
  | .cueSelect p l a => wLd p l && wAccess a
  | .cueWeight p l a => wLd p l && wAccess a
  | .cueBlockIssue _ => true
  | .cueBlockFill p _ _ es => wBelow 64 p && wErrs es
  | .rebuildStep r => wBits 32 r
  | .slotWaitExpiry r m _ => wBits 32 r && wBelow 16384 m
  | .hello f b => wFrame f && wHello b
  | .helloRsp f b => wFrame f && wHello b
  | .coldonFinish f => wFrame f
  | .ack f _ => wFrame f
  | .ping f c => wFrame f && wBits 64 c
  | .pong f c => wFrame f && wBits 64 c
  | .close f r => wFrame f && wBits 8 r
  | .nak f _ _ r => wFrame f && wBits 8 r
  | .read f a r t _ n _ _ q => wFrame f && wBits 58 a && wBits 32 r && wBits 32 t && wBits 16 n && q.all wBurst
  | .readRsp f t _ _ _ _ => wFrame f && wBits 32 t
  | .write f a r t _ n _ d => wFrame f && wBits 58 a && wBits 32 r && wBits 32 t && wLines n d
  | .add f a r t _ n _ _ _ d => wFrame f && wBits 58 a && wBits 32 r && wBits 32 t && wLines n d
  | .delta f a r t _ n _ d => wFrame f && wBits 58 a && wBits 32 r && wBits 32 t && wLines n d
  | .writeAck f t _ => wFrame f && wBits 32 t
  | .reserve f r t _ _ p => wFrame f && wBits 32 r && wBits 32 t && wBelow 64 p
  | .commit f r t _ _ p k => wFrame f && wBits 32 r && wBits 32 t && wBelow 64 p && wBelow 256 k
  | .abandon f r t _ p k => wFrame f && wBits 32 r && wBits 32 t && wBelow 64 p && wBelow 256 k
  | .coldonAcquire f r t _ _ p => wFrame f && wBits 32 r && wBits 32 t && wBelow 64 p
  | .coldonRelease f r t _ p => wFrame f && wBits 32 r && wBits 32 t && wBelow 64 p
  | .regionRsp f t _ _ _ _ => wFrame f && wBits 32 t
  | .coldonFill f r t _ _ _ _ _ => wFrame f && wBits 32 r && wBits 32 t
  | .mirror f r t _ _ _ _ _ _ _ => wFrame f && wBits 32 r && wBits 32 t
  | .promote f r _ m => wFrame f && wBits 32 r && wBelow 16384 m
  | .tableFetch f r t _ k g => wFrame f && wBits 32 r && wBits 32 t && wBits 8 k && wBits 8 g
  | .tableRsp f t _ k g _ _ => wFrame f && wBits 32 t && wBits 8 k && wBits 8 g
  | .tableDrop f k g => wFrame f && wBits 8 k && wBits 8 g
  | .tableRelease f k g => wFrame f && wBits 8 k && wBits 8 g
  | .reduceJoin f g _ k _ _ => wFrame f && wBits 16 g && wBits 16 k
  | .reduceData f g k _ _ _ _ _ => wFrame f && wBits 16 g && wBits 16 k
  | .reduceSum f g k _ _ _ _ _ => wFrame f && wBits 16 g && wBits 16 k
  | .reduceAbort f g r _ => wFrame f && wBits 16 g && wBits 8 r
  | .helloRetryExpiry m => wBelow 16384 m
  | .rtoExpiry m q => wBelow 16384 m && wBits 32 q
  | .ackDelayExpiry m => wBelow 16384 m
  | .idlePingExpiry m => wBelow 16384 m
  | .livenessLimitExpiry m => wBelow 16384 m
  | .neighborSolicitation p t => wBelow 4 p && wBits 128 t
  | .echoRequest p d _ => wBelow 4 p && wBits 128 d
  | .pfcFrame p c _ => wBelow 4 p && wBits 3 c
  | .pauseFrame p => wBelow 4 p
  | .routerAdvertisement p => wBelow 4 p
  | .coldonPortDown p => wBelow 4 p
  | .coldonPortUp p => wBelow 4 p
  | .throttleEnd p _ => wBelow 8 p
  | .refreshDue c _ _ => wCtl c
  | .refreshIssue c _ _ => wCtl c
  | .refreshComplete c _ => wCtl c
  | .mr4Read c k r => wCtl c && wBelow 32 k && wBelow 8 r.lr
  | .retrainRound c _ _ _ => wCtl c
  | .retrainStep c _ _ _ _ => wCtl c
  | .retrainDeferExpiry c _ => wCtl c
  | .trackerClear c => wCtl c
  | .targetedRefresh c _ _ => wCtl c
  | .freqChangeStart p _ => wBelow 8 p
  | .freqChangeDone p h _ => wBelow 8 p && h.length == 8
  | .dctlXlateMa rq p a => wRequester rq && wBelow 8 p && wAccess a
  | .scrubStep c es => wCtl c && wErrs es
  | .deviceLocate r d => wBelow 64 r && (match d with | some x => wBelow 10 x | none => true)
  | .migrationStep es => wErrs es
  | .recoveryEnd _ _ _ _ => true
  | .holdLimitExpiry _ => true
  | .eraseSweepStep p => wBelow 8 p
  | .powerTick t => wTick t
  | .demandFall _ => true
  | .calibrationInterval => true
  | .calNvmWrite => true
  | .capDeferred _ => true
  | .thermalTrip n _ => wBelow 96 n
  | .supplyTrip => true
  | .pwrCapModule rq v => wRequester rq && wBits 32 v
  | .pwrCapDie rq a => wRequester rq && wAccess a
  | .ownerClaim m k g => wMgmt m && wBytes 133 k && wBytes 132 g
  | .ownerTransfer m h sn n g => wMgmt m && wBytes 64 h && wBytes 16 sn && wBytes 32 n && wBytes 132 g
  | .cosignSet m g => wMgmt m && wBytes 132 g
  | .debugChallenge m => wMgmt m
  | .debugUnlock m t => wMgmt m && wBytes 328 t
  | .debugLock m => wMgmt m
  | .powerUp a => wBelow 16 a
  | .trainingComplete us => us.all wUnit
  | .startTimeout => true
  | .reload m n => wMgmt m && wBits 8 n
  | .reloadComplete => true
  | .resetPartition m p => wMgmt m && wBits 8 p
  | .moduleReset m => wMgmt m
  | .moduleRestart m => wMgmt m
  | .epoch m => wMgmt m
  | .cavernPromote m r => wMgmt m && wBits 32 r
  | .timeSet m t => wMgmt m && wBits 64 t
  | .logRead m b c => wMgmt m && wBits 8 b && wBits 8 c
  | .bookmarkSet m b k q => wMgmt m && wBits 8 b && wBits 8 k && wBits 32 q
  | .logBmkWrite rq b v => wRequester rq && wBelow 8 b && wBits 32 v
  | .fwCommit m => wMgmt m
  | .regRead m a n => wMgmt m && wBits 64 a && wBits 8 n
  | .regWrite m a n v => wMgmt m && wBits 64 a && wBits 8 n && wBits 64 v
  | .unknownCommand m c => wMgmt m && wBits 8 c
  | .mgmtWatchdog => true
  | .callboardMirrorWrite d => wBelow 2 d
  | .setEventReceiver e => wBits 8 e
  | .verifyComplete c n => (c == 1 || c == 2) && wBelow 2 n
  | .activateFirmware => true
  | .trialCommitTimeout => true
  | .wqStallClose q _ _ => wBelow 120 q
  | .wqPacketNumberArrival q => wBelow 120 q
  | .crossedClear rq q _ => wRequester rq && wBelow 120 q
  | .markWrite rq q v => wRequester rq && wBelow 120 q && wBits 12 v
  | .tstHoldEnd q => wBelow 120 q
  | .modResetNAssert _ => true
  | .modResetNRelease => true
  | .standbyLoss => true
  | .prsntNRise p => wBelow 4 p
  | .prsntNFall p => wBelow 4 p
  | .perstNRelease p => wBelow 8 p
  | .componentTransfer c n _ _ => (c == 1 || c == 2) && wBelow 2 n

end Sys2Proof
end

