-- ==== Sys2Proof/Tests/Slice0.lean ====
section
/-! SUPPORT. Tests: ill-formed commands are refused, every statement's premises can be met, and single steps give what the spec's tables say. -/

namespace Sys2Proof.Tests

open Sys2Proof Sys2Proof.Machine

set_option Elab.async false

/-! ### A small module -/

/-- Range entry 0: one page of HDM-H. -/
def rngH : PbRange := { part := 1, kind := 0, hint := 0, aptBf16 := false, aperture := false, regionId := 0, maBase := 0, size := 0x200000, ldMask := 1 }

/-- Range entry 1: one page of HDM-DB. -/
def rngDb : PbRange := { rngH with kind := 1, maBase := 0x200000 }

/-- Range entry 2: cavern region 5. -/
def rngCvn : PbRange := { rngH with kind := 2, regionId := 5, maBase := 0, size := 0x200000 }

/-- Region 5: versioned, without redundancy, on modules 1 and 2, two slots, home module 1. -/
def reg5 : PbRegion :=
  { rid := 5, kind := 1, mode := 0, nslots := 2, holderHint := 0, size := 0x200000, stripeBase := 0, home := 1, altHome := 2, owner := 1, slotWait := 1,
    members := [1, 2], digest := 9 }

/-- Reduction group 3: partition 1 of modules 1 and 2. -/
def grp3 : PbGroup := { group := 3, joinLimit := 1, members := [(1, 1), (2, 1)] }

/-- Ring 0 of partition 1: 16 entries each. -/
def ring0 : PbRing := { ring := 0, part := 1, cqLog2 := 4, sqLog2 := 4, maxInflight := 8, vector := 1, intLd := 0, sqBase := 0, cqBase := 0x1000 }

/-- A prompt book of one partition, one host port, one ring and one peer module. -/
def demoBook : PromptBook :=
  { partitions := [{ num := 1, keyOnReset := false, orphanStale := false, rt := false, slotsMin := 0, ringFirst := 0, ringCount := 1, ldMask := 1 }],
    ranges := [rngH, rngDb, rngCvn], rings := [ring0],
    ports := [{ port := 0, maxX4 := false, maxRate := 64, sris := false, enable := true, ldCount := 1, biTimeout := 1, ldCap := [2] }],
    moduleId := 1, sharePct := 50, regions := [reg5], groups := [grp3], peakW := 1800, sustainedW := 1500, dieAW := 600, dieBW := 600, hubW := 500, deferLimit := 1,
    rxWindow := 64, ackDelayNs := 1000, rtoInitNs := 1000, rtoMaxNs := 1000, idlePingUs := 1000, livenessUs := 10000, helloRetryUs := 1000, stallLimit := 10,
    cldPorts := [{ port := 0, ip := 7, gwMac := 8, vlan := 0, pcp := 0, dscp := 0, enable := true, pfcEn := true }],
    peers := [{ moduleId := 2, ips := [20, 0, 0, 0], keyHash := [] }] }

/-- Block `b` resident. -/
def near (b : Nat) : NearBlk := { blk := b, part := 1, st := .clean, pinned := false, sectors := 16, hit := true }

/-- The module in service: port 0 in L0, one LD with one committed decoder, blocks 0 to 2 resident. -/
def demo : State :=
  { mgmt := { phase := .up, standby := true, dataRails := true, pb := demoBook, nor := [(0, { fw := factoryFw, fwSt := .active })] },
    host := { ports := [(0, { link := .l0, rate := 64, x8 := true, perstLow := false })],
              lds := [(0, { decoders := [(0, { size := 0x20000000, committed := true })], msixEnable := true, unmasked := [0, 1, 63] })] },
    parts := [(1, { st := 0 })], mem := { tags := [near 0, near 1, near 2] }, clk := { running := true, hmesh := 14000000, mgmt := 500000000 } }

def demoHost (h : HostSide → HostSide) : State := { demo with host := h demo.host }
def demoPort (f : Port → Port) : State := demo.modPort 0 f
def demoLd (f : Ld → Ld) : State := demo.modLd 0 f
def demoPart (f : Part → Part) : State := demo.modPart 1 f
def demoMgmt (f : Mgmt → Mgmt) : State := { demo with mgmt := f demo.mgmt }
def demoMem (f : MemSys → MemSys) : State := { demo with mem := f demo.mem }
def demoRas (f : Ras → Ras) : State := { demo with ras := f demo.ras }

/-! ### Small operations -/

/-- The 64 bytes of a descriptor with the fields given, as (offset, bytes, value). -/
def descOf (fs : List (Nat × Nat × Nat)) : Bytes := fs.foldl (fun d f => putAt d f.1 (leBytes f.2.1 f.2.2)) (List.replicate 64 0)

/-- A checked and started operation in slot 4, of ring 0 and partition 1. -/
def opOf (code : Nat) (fs : List (Nat × Nat × Nat)) : Op :=
  { id := 4, ring := 0, idx := 0, seq := 0, part := 1, opcode := code, tag := 0, int := false, okOnly := false, desc := descOf fs, checked := true, started := true }

/-- The small module with one operation. -/
def withOp (s : State) (o : Op) : State := { s with disp := { s.disp with ops := [o] } }

theorem noCues_of {s : State} (h : s.parts.all (fun x => x.2.cue.cues.isEmpty) = true) (p : Nat) : (s.part p).cue.cues = [] := by
  unfold State.part tabGet tabFind
  cases hx : s.parts.find? (fun e => e.1 == p) with
  | none => rfl
  | some x => simpa using List.all_eq_true.mp h x (List.mem_of_find?_eq_some hx)

theorem localOperands_of {s : State} {o : Op}
    (h : (s.needs o ++ o.declared).all (fun x => x.name == 9 || match (s.opd o.part x.pa x.len).toOption with
      | some y => y.rng.regionId == 0 && y.rng.kind == 0
      | none => true) = true) : LocalOperands s o := by
  intro n x hn hx
  obtain ⟨y, hy, hx⟩ := Option.bind_eq_some_iff.mp hx
  have := List.all_eq_true.mp h y (List.mem_of_find?_eq_some hy)
  have hm := List.find?_some hy
  rw [hx] at this
  simp only [beq_iff_eq] at hm
  simpa [hm, hn] using this

/-- The window of range entry 0. -/
def spanH : Span := { base := 0, size := 0x200000, part := 1, idx := 0, rng := rngH, apt := false }

/-- A host read of the first line of block 3. -/
def readOf (w : ReqWait) : HostReq :=
  { id := 0, port := 0, ld := 0, tag := 0, dpa := 0x3000, part := 1, range := 0, line := 0xC0, op := .rd, mv := .noOp, reserve := false, wait := w }

def sess5 : SpdmSess := { id := 5, established := true, phase := 0 }

def entry : LogEnt := { seq := 0, stamp := 0, code := 1, cls := 1, part := 1, sev := 3, unit := 0, count := 0, value := 0, record := [] }

def scanAll : BgCmd := { kind := 2, ldIdx := 0, base := 0, len := 0 }

def job0 : ResetJob := { newKey := false, sanitize := false, mailbox := false, aborted := 0, discarded := 0, orphans := 0 }

/-- An operand of an operation. -/
def opdOf (s : State) (o : Op) (n : Nat) : Opd := (s.operand o n).getD default

def opCopy : Op := opOf 0x02 [(24, 8, 0x1000), (32, 8, 64)]
def opFill : Op := opOf 0x03 [(16, 8, 0x1000), (24, 8, 64)]
def opGemm : Op := opOf 0x20 [(24, 8, 0x400), (32, 8, 0x1000), (48, 4, 1), (52, 4, 1), (56, 4, 16)]
def opOptim : Op := opOf 0x22 [(24, 8, 0x400), (32, 8, 0x1000), (40, 8, 0x1400), (56, 4, 1)]
def opIndexed (code : Nat) : Op := opOf code [(6, 2, 4), (24, 8, 0x400), (32, 8, 0x1000), (40, 8, 1), (48, 4, 1), (52, 4, 1)]
def opSim : Op := opOf 0x38 [(24, 8, 0x400), (32, 8, 0x1000), (48, 4, 1), (52, 2, 32), (54, 2, 1), (56, 2, 1)]
def opPlace : Op := opOf 0x18 [(6, 2, 3), (24, 8, 0x200000)]
def opSeal : Op := opOf 0x10 [(6, 2, 8)]
def opPublish : Op := opOf 0x40 [(32, 8, 64), (40, 8, 7), (48, 8, 0x1000), (56, 1, 2)]
def opAcquire : Op := opOf 0x41 [(24, 8, 0x1000), (32, 1, 2)]
def opRelease : Op := opOf 0x42 [(16, 1, 2)]
def opReduce : Op := opOf 0x28 [(24, 8, 0x1000), (32, 4, 16), (40, 2, 3)]

/-- A sheet of one cue of one block (Table 4-5), and PREFETCH of it. -/
def sheet0 : Bytes := let e := leBytes 8 0x3000 ++ leBytes 20 1; e ++ leBytes 4 (crc32c e)
def opPrefetch : Op := opOf 0x19 [(24, 2, 1), (26, 2, 2)]
def sheetIn : State := withOp { demo with mem := { demo.mem with near := memWrite [] 0 sheet0 } } opPrefetch

/-- Range entry 0 sealed, or being sealed by the operation in slot 4. -/
def sealed0 : SealedRange := { part := 1, range := 0, fmt := 0, replica := false, groups := [], queue := [4] }

/-- This module is home of region 5, whose version 7 is current in slot 0. -/
def homed (s : State) : State := { s with cav := { s.cav with regions := [(5, { slots := [(0, { st := .current, version := 7 })] })] } }

def cue1 : Cue := { addr := 0x3000, blocks := 1, layer := 1, group := 1, alt := 0, weight0 := 0, look := 0, buffer := false, cluster := 0 }

def demoCue (f : CueSheet → CueSheet) : State := demoPart (fun x => { x with cue := f { loaded := true, layerCount := 2 } })

theorem onlyCue_of {s : State} {p : Nat} (h : s.parts.all (fun x => x.1 == p || !x.2.cue.loaded) = true) : ∀ q, q ≠ p → s.nextCue q = none := by
  intro q hq
  have : (s.part q).cue.loaded = false := by
    unfold State.part tabGet tabFind
    cases hx : s.parts.find? (fun e => e.1 == q) with
    | none => rfl
    | some x =>
      have h1 := List.all_eq_true.mp h x (List.mem_of_find?_eq_some hx)
      have h2 := List.find?_some hx
      simp only [beq_iff_eq] at h2
      simp only [h2, Bool.or_eq_true, beq_iff_eq, hq, false_or, Bool.not_eq_true'] at h1
      simpa using h1
  simp [State.nextCue, this]

/-! ### A peer module -/

/-- The session with module 2. -/
def sess2 : Sess := { peer := 2, lsid := 11, psid := 12, txKey := List.replicate 36 3, rxKey := List.replicate 36 4, port := 0, dst := 20, peerCredit := 64, sndNxt := 1 }

def demoPeer : State :=
  { demo with
    cld := { ports := [(0, { up := true, prsntHigh := false })], sessions := [sess2] }
    clk := { demo.clk with peer := [(0, 100000000)] } }

def demoSess (f : Sess → Sess) : State := { demoPeer with cld := { demoPeer.cld with sessions := [f sess2] } }
def demoHalf (h : List HalfOpen) : State := { demoPeer with cld := { demoPeer.cld with sessions := [], half := h } }
def demoRegions (s : State) (l : List PbRegion) : State := { s with mgmt := { s.mgmt with pb := { s.mgmt.pb with regions := l } } }
def demoCav (f : Cavern → Cavern) : State := { demoPeer with cav := f demoPeer.cav }

/-- Gives a frame the check code of Table 10-3 and the tag of its message under a receiving key (Table 10-7). -/
def stamped (f : Frame) (m : ColdonMsg) (key : Bytes) : Frame :=
  { f with
    hchk := crc32c f.headBytes
    tag := if f.enc then (sealPayload key f.txc (f.headBytes ++ leBytes 4 (crc32c f.headBytes)) (f.bodyBytes m)).2 else [] }

/-- A frame of module 2 with message `m`. -/
def frameOf (m : ColdonMsg) (enc ackv : Bool) : Frame :=
  stamped
    { port := 0, fcsOk := true, frameLen := 200, vlan := none, udp := true, srcIp := 20, dstIp := 7, udpPort := 0, sumOk := true, ce := false, version := 1,
      typ := m.typeLen.1, ece := false, retx := false, ackv := ackv, seqd := m.sequenced, enc := enc, session := if enc then 11 else 0, seq := 0,
      ack := if ackv then 1 else 0, len := m.typeLen.2, udpLen := 48 + m.typeLen.2 + (if enc then 16 else 0), credit := 64, src := 2, dst := 1, txc := 0, rsv := 0,
      hchk := 0, bodyRsv := 0, tag := [] } m sess2.rxKey

theorem stamped_tagOk {f : Frame} {m : ColdonMsg} {key : Bytes} (h : f.enc = true) : (stamped f m key).tagOk key m = true := by
  have h1 : (stamped f m key).headBytes = f.headBytes := rfl
  have h2 : (stamped f m key).bodyBytes m = f.bodyBytes m := rfl
  have h3 : (stamped f m key).tag = (sealPayload key f.txc (f.headBytes ++ leBytes 4 (crc32c f.headBytes)) (f.bodyBytes m)).2 := if_pos h
  unfold Frame.tagOk
  rw [h1, h2, h3]
  exact beq_self_eq_true _

/-- A frame of the session with module 2. -/
def arriving (m : ColdonMsg) (ackv : Bool := false) : Frame := frameOf m true ackv

/-- The state after the receive checks of a message of the session, and the session there. -/
def after (s : State) (m : ColdonMsg) (ackv : Bool := false) : State := (s.deliver (s.cld.sessions.headD sess2) (arriving m ackv) m).s
def sessAfter (s : State) (m : ColdonMsg) (ackv : Bool := false) : Sess := ((after s m ackv).sess? 2).getD sess2

/-- The public key of private key 1. -/
def baseKey : Bytes := [4] ++ beBytes 66 gx521 ++ beBytes 66 gy521

/-- A HELLO or HELLO_RSP of module 2 with its identity key, signed over `pre` and itself (R230). -/
def helloOf (pre : Bytes) : HelloBody :=
  let b : HelloBody := { moduleId := 2, lsid := 5, nonce := List.replicate 32 1, eph := baseKey, idKey := baseKey, sig := [] }
  { b with sig := beBytes 66 (gx521 % n521) ++ beBytes 66 ((beNat (sha512 (pre ++ b.head)) + gx521) % n521) }

/-- A HELLO of module `m` with no signature. -/
def hello0 (m : Nat) : HelloBody :=
  { moduleId := m, lsid := 5, nonce := List.replicate 32 1, eph := List.replicate 133 0, idKey := List.replicate 133 0, sig := List.replicate 132 0 }

/-- The small module as module 3 or 1, with module 2's identity key in its prompt book. -/
def demoId (n : Nat) : State :=
  { demoPeer with mgmt := { demoPeer.mgmt with pb := { demoBook with
      moduleId := n, regions := [], peers := [{ moduleId := 2, ips := [20, 0, 0, 0], keyHash := (sha512 baseKey).take 32 }] } } }

def half0 : HalfOpen := { peer := 2, lsid := 11, psid := 0, responder := false, since := 0, port := 0, dst := 20, hello := some (hello0 1) }
def half2 : HalfOpen := { half0 with responder := true, rxKey := List.replicate 36 4, txKey := List.replicate 36 3, hello := none }

/-- A frame without a session to module `n`. -/
def plainTo (n : Nat) (m : ColdonMsg) : Frame := stamped { frameOf m false false with dst := n } m []

/-- The state once a frame without a session is taken. -/
def taken (s : State) : State := s.modCport 0 (fun c => { c with rx := c.rx + 1 })

/-- Region 5 with another home module. -/
def regAway : PbRegion := { reg5 with home := 9 }

/-- Region 5 with a home module of its own mirror's absence, and with redundancy by mirroring. -/
def regAlone : PbRegion := { reg5 with altHome := 9 }
def regMirrored : PbRegion := { reg5 with mode := 1 }

def homeAlone (f : Tab VSlot → Tab VSlot) : State :=
  { demoRegions { demoPeer with cld := { demoPeer.cld with unreachable := [9] } } [regAlone] with cav := { regions := [(5, { mirrorLost := true, slots := f [(0, { st := .current, version := 7, pins := [(2, 4)] })] })] } }

/-- Version slot 1, reserved by partition 4 of module 2. -/
def reserved (l : Tab VSlot) : Tab VSlot := l ++ [(1, { st := .writing, writer := some (2, 77, 4) })]

/-- An access of this module that waits for answer 6 of module 2. -/
def acc3 (who : CvnFor) (what : CvnDo) : CvnAcc := { id := 3, who := who, rid := 5, what := what, waits := [6] }
def rem6 : Remote := { rtag := 6, peer := 2, acc := 3, msg := .ping 0, issuedAt := 0, sent := true }
def awaiting (who : CvnFor) (what : CvnDo) : State :=
  withOp { demoPeer with cav := { accs := [acc3 who what], remote := [rem6] } } (opOf 0 [])

def redn5 : Redn := { group := 3, rseq := 5, op := some 4 }
def reducing : State := withOp { demoPeer with cav := { redns := [redn5] } } opReduce

def outMsg : OutMsg := { seq := 0, msg := .ping 0, sentAt := 0, rtoNs := 1000, expiries := 0, sackedLater := 0, sacked := false }

/-- A table that module 2 is home of, imported into slot 0. -/
def imported : GSlot := { st := 2, imp := true, home := 2, homeSlot := 4, homeGen := 6 }

/-! ### Controllers, power and management -/

def demoDeep (c : DCtl) : State := { demo with dram := { deep := [(7, c)] } }
def demoPwr (p : Power) : State := { demo with pwr := p }
def atDeep (n : Nat) (c : DCtl) : State := { demoDeep c with clk := { demo.clk with deep := n } }
def demoWq (q : Nat) (w : WQueue) : State := { demo with wq := { queues := [(q, w)] }, clk := { demo.clk with d2d := [(1, 1000000)] } }
def hdr : MgmtHdr := { path := .i3c, tag := 0, secured := true }
def recov3 : Recov := { block := 3, since := 0, above := false, stale := false, before := [] }
def zeroEnt : MapEnt := { mode := 3, sectors := 1, replica := true }
def recovering (e : MapEnt) : State := { demo with ras := { recov := [recov3] }, mem := { bmap := [(3, e)] } }
def erased0 : Erased := { pair := 0, part := 1, base := 0, size := 0x200000, next := 0, cleared := [] }
def booting : State := demoMgmt (fun m => { m with phase := .booting, reload := some (0, [], demoBook, true, true) })

theorem pairsOpen_of {s : State} (h : s.dram.deep = [] ∧ s.bud.use = [] ∧ s.ras.ranks = [] ∧ s.mem.erased = [] ∧ s.mem.draining = [] ∧ s.bud.throttles = []) :
    PairsOpen s := by
  obtain ⟨h1, h2, h3, h4, h5, h6⟩ := h
  refine ⟨h5, h6, fun blk => ?_⟩
  simp [State.deepHeld, State.ctl, State.rank, State.pairFull, State.usedAt, State.eraseFull, h1, h2, h3, h4, tabGet, tabFind, setHas, opBytes]

theorem quiet_of {s : State} (h1 : s.parts.all (fun x => x.2.cue.cues.isEmpty) = true)
    (h0 : s.dram.deep = [] ∧ s.bud.use = [] ∧ s.ras.ranks = [] ∧ s.mem.erased = [] ∧ s.mem.draining = [] ∧ s.bud.throttles = [])
    (h2 : s.ras.recov = [] ∧ s.ras.gone = [] ∧ s.mem.bmap = [] ∧ s.mem.cueArea = [] ∧ s.mem.deepPoison = [] ∧ s.mem.nearPoison = [] ∧ s.mem.merge = [] ∧
      s.gol.sealedRanges = [] ∧ s.gol.slots = []) (h3 : s.host.reqs = [] ∧ s.host.ingress = []) : Quiet s :=
  ⟨h3, pairsOpen_of h0, noCues_of h1, h2⟩

theorem coldonIdle_of {s : State} (h : s.host.reqs = [] ∧ s.host.ingress = [] ∧ s.cav.landing = [] ∧ (∀ g ∈ s.pb.regions, (s.region g.rid).stalled = []) ∧
      s.cld.ports.all (fun x => !x.2.xoff) = true ∧ s.cld.sessions.all (fun x => x.reorder.isEmpty) = true) : ColdonIdle s := by
  obtain ⟨h1, h2, h3, h4, h5, h6⟩ := h
  refine ⟨⟨h1, h2⟩, h3, h4, fun p => ⟨?_, ?_⟩⟩
  · unfold State.cport tabGet tabFind
    cases hx : s.cld.ports.find? (fun e => e.1 == p) with
    | none => rfl
    | some x => simpa using List.all_eq_true.mp h5 x (List.mem_of_find?_eq_some hx)
  · unfold State.reorderBytes
    have : ∀ x ∈ s.cld.sessions.filter (fun x => x.port == p), (x.reorder.map (fun e => e.2.typeLen.2)).sum = 0 := by
      intro x hx
      have := List.all_eq_true.mp h6 x (List.mem_of_mem_filter hx)
      simp [List.isEmpty_iff.mp this]
    rw [List.map_congr_left this]
    simp

theorem arrives_of {s : State} {m : ColdonMsg} {a : Bool} {x : Sess} (hx : s.cld.sessions.headD sess2 = x) (hk : x.rxKey = sess2.rxKey)
    (h : s.dataUp = true ∧ (s.cport 0).up = true ∧ s.linkCheck (arriving m a) = none ∧ (arriving m a).headOk = true ∧ 1 = s.pb.moduleId ∧ m.typeLen.1 ≠ 3 ∧
      s.cld.sessions.find? (fun x => x.lsid == 11 && x.peer == 2) = some x ∧ x.replayed (arriving m a) = false ∧ (s.sess? 2).map (·.port) = some (sessAfter s m a).port)
    (hm : (s.deliver x (arriving m a) m).msgs = [m]) (hr : 2 ≠ (after s m a).pb.moduleId ∧ (after s m a).sess? 2 = some (sessAfter s m a))
    (hi : (after s m a).host.reqs = [] ∧ (after s m a).host.ingress = [] ∧ (after s m a).cav.landing = [] ∧
      (∀ g ∈ (after s m a).pb.regions, ((after s m a).region g.rid).stalled = []) ∧ (after s m a).cld.ports.all (fun x => !x.2.xoff) = true ∧
      (after s m a).cld.sessions.all (fun x => x.reorder.isEmpty) = true) : Arrives s (arriving m a) m (after s m a) (sessAfter s m a) := by
  obtain ⟨h1, h2, h3, h4, h5, h6, h7, h8, h9⟩ := h
  have e : s.receive (arriving m a) m = { s := after s m a, msgs := [m] } := by
    rw [receive_of_session h3 h4 h5 rfl h6 h7 (hk ▸ stamped_tagOk rfl) h8, ← hm]
    unfold after
    rw [hx]
  exact ⟨h1, h2, e, hr.1, hr.2, h9, coldonIdle_of hi⟩

theorem awaits_of {r : State} {peer tag : Nat} {a : CvnAcc} {o : Op} (y : Remote) (h1 : r.cav.remote = [y] ∧ y.rtag = tag ∧ y.peer = peer ∧ y.acc = a.id)
    (h2 : r.cav.accs = [a] ∧ a.waits = [tag] ∧ a.status = 0 ∧ a.lost = false ∧ a.degraded = false ∧ a.data = [] ∧ a.poison = 0 ∧ r.disp.ops = [o]) :
    Awaits r peer tag a o := ⟨⟨y, h1⟩, h2⟩

theorem answerable_of {s : State} {m : MgmtHdr} (h : s.mgmtUp = true ∧ s.mgmt.phase ≠ .recovery ∧ m.path = .i3c) : Answerable s m := ⟨h.1, h.2.1, .inl h.2.2⟩

/-! ### The premises of the statements can be met, clause by clause, at the ends of their ranges

A clause whose premises are among those of another clause of its statement has its witness there. -/

theorem witness_RegisterAccess :
    (∃ (s : State) (p l : Nat), s.ldReach p l = true) ∧
    (∃ (s : State) (k x : Nat), s.mgmtUp = true ∧ s.mgmt.phase ≠ .recovery ∧ k < 8 ∧ s.latchOf .mgmt (0x100900100 + 0x1000 * k) = some x) ∧
    (∃ (s : State) (k lo : Nat), s.mgmtUp = true ∧ s.mgmt.phase ≠ .recovery ∧ k < 8 ∧ s.heldHalf .mgmt (0x100900010 + 0x1000 * k) = some lo) :=
  ⟨⟨demo, 0, 0, by decide +kernel⟩,
   ⟨demoHost (fun h => { h with latched := [{ rq := .mgmt, addr := 0x100907100, value := 1 }] }), 7, 1, by decide +kernel⟩,
   ⟨demoHost (fun h => { h with held := [{ rq := .mgmt, addr := 0x100907010, value := 1 }] }), 7, 1, by decide +kernel⟩⟩

theorem witness_UnitFailures :
    (∃ (s : State) (l : D2dLink), s.dataUp = true ∧ s.ras.d2dDown.contains l = false ∧ (s.wq.tstReplay % 16 ≠ 8 + d2dIdx l ∨ bits s.wq.tstReplay 15 8 = 0)) ∧
    (∃ (s : State) (l : D2dLink), s.dataUp = true ∧ s.ras.d2dDown.contains l = false ∧ s.wq.tstReplay % 16 = 8 + d2dIdx l ∧ bits s.wq.tstReplay 15 8 ≠ 0) ∧
    (∃ (s : State) (l : D2dLink) (lost : Bool), s.dataUp = true ∧ s.ras.d2dDown.contains l = false ∧ (lost = true ∨ 8 ≤ s.d2dRun l) ∧ HostIdle s ∧ OwnSlots s) ∧
    (∃ (s : State) (u : UnitId), s.hubUp = true ∧ unitExists u = true ∧ s.isFailed u = false ∧ 8 ≤ s.hopRun u ∧ HostIdle s ∧ OwnSlots s) :=
  ⟨⟨demo, .aHub, by decide +kernel⟩,
   ⟨{ demo with wq := { tstReplay := 264 + d2dIdx .aHub } }, .aHub, by decide +kernel⟩,
   ⟨demo, .aHub, true, by unfold HostIdle OwnSlots; decide +kernel⟩,
   ⟨demoRas (fun r => { r with hopFails := [(.deepCtl 15, 8)] }), .deepCtl 15, by unfold HostIdle OwnSlots; decide +kernel⟩⟩

theorem witness_Windows :
    (∃ (s : State) (cls pt : Nat), s.pointRuns cls pt = true ∧ s.nextBoundary cls pt ≤ (s.pointClock cls pt).1 ∧ s.cav.heldReads = []) ∧
    (∃ (s : State), s.dataUp = true ∧ nextAt s.disp.winFrom 0 14336 ≤ s.clk.hmesh) ∧
    (∃ (s : State) (pair act : Nat) (x : Throttle), s.throttle? pair act = some x ∧ x.left = 0 ∧ s.cav.heldReads = []) :=
  ⟨⟨{ demo with clk := { demo.clk with deep := 10000000, near := (10000000, 10000000) } }, 0, 15, by decide +kernel⟩,
   ⟨demo, by decide +kernel⟩,
   ⟨{ demo with bud := { throttles := [{ pair := 7, act := 1, left := 0 }] } }, 7, 1, { pair := 7, act := 1, left := 0 }, by decide +kernel⟩⟩

theorem witness_LinkTraining :
    (∃ (s : State) (p : Nat), s.portReady p = true ∧ (s.port p).link = .detect) ∧
    (∃ (s : State) (p : Nat), s.portReady p = true ∧ (s.port p).link = .trained) ∧
    (∃ (s : State) (p : Nat), s.portReady p = true ∧ (s.port p).link = .l0) :=
  ⟨⟨demoPort (fun x => { x with link := .detect }), 0, by decide +kernel⟩,
   ⟨demoPort (fun x => { x with link := .trained }), 0, by decide +kernel⟩,
   ⟨demo, 0, by decide +kernel⟩⟩

theorem witness_PortAndLdResets :
    (∃ (s : State) (p : Nat), (s.port p).link ≠ .detect ∧ HostIdle s) ∧
    (∃ (s : State) (p : Nat), p < 8 ∧ (s.port p).perstLow = false ∧ s.hubUp = true ∧ HostIdle s) ∧
    (∃ (s : State) (p l : Nat), (s.port p).link = .l0 ∧ s.ldEnabled p l = true ∧ HostIdle s) :=
  ⟨⟨demo, 0, by unfold HostIdle; decide +kernel⟩,
   ⟨demo, 0, by unfold HostIdle; decide +kernel⟩,
   ⟨demo, 0, 0, by unfold HostIdle; decide +kernel⟩⟩

theorem witness_MsixAndDecoders :
    (∃ (s : State) (p l v : Nat), (s.port p).link = .l0 ∧ s.ldEnabled p l = true ∧ v < 64 ∧ (s.ld (ldIdx p l)).msixEnable = true ∧ (s.ld (ldIdx p l)).funcMask = false ∧ (s.ld (ldIdx p l)).pend = [v]) ∧
    (∃ (s : State) (p l v : Nat), (s.port p).link = .l0 ∧ s.ldEnabled p l = true ∧ v < 64 ∧ (s.ld (ldIdx p l)).pend = []) ∧
    (∃ (s : State) (p l idx base size skip ways gran : Nat) (bi : Bool) (ok : Bool), (s.port p).link = .l0 ∧ s.ldEnabled p l = true ∧ idx < 8 ∧ s.decoderOk p l idx (tabSet (s.ld (ldIdx p l)).decoders idx { base := base, size := size, skip := skip, ways := ways, gran := gran, bi := bi }) = ok) :=
  ⟨⟨demoLd (fun l => { l with pend := [63] }), 0, 0, 63, by decide +kernel⟩,
   ⟨demo, 0, 0, 63, by decide +kernel⟩,
   ⟨demo, 0, 0, 7, 0, 0x10000000, 0, 1, 256, false, false, by decide +kernel⟩⟩

theorem witness_HostAccess : ∃ (s : State) (p l hpa q : Nat) (t : Tgt), PlainNear s p l hpa q t :=
  ⟨demo, 0, 0, 0x1FC0, 1, { span := spanH, off := 0x1FC0, dpa := 0x1FC0, line := 0x7F }, by unfold PlainNear HostIdle OwnSlots; decide +kernel⟩

theorem witness_HostReadReturnsHostWrite : ∃ (s : State) (p l hpa q : Nat) (t : Tgt), PlainNear s p l hpa q t :=
  ⟨demo, 0, 0, 0x1FC0, 1, { span := spanH, off := 0x1FC0, dpa := 0x1FC0, line := 0x7F }, by unfold PlainNear HostIdle OwnSlots; decide +kernel⟩

theorem witness_HostCoherence :
    (∃ (s : State) (p l hpa q : Nat) (t : Tgt), PlainNear s p l hpa q t) ∧
    (∃ (s : State) (p l hpa q : Nat) (t : Tgt), s.arrive p l hpa = .ok q t ∧ HostIdle s ∧ OwnSlots s ∧ t.span.apt = false ∧ s.isSealed q t.span.idx = false ∧ t.span.rng.regionId = 0 ∧ (s.nearFind (t.line / 64)).isSome = false ∧ s.hintAt t.span.rng t.span.idx t.off ≤ 1) ∧
    (∃ (s : State) (p l hpa q : Nat) (t : Tgt), s.arrive p l hpa = .ok q t ∧ HostIdle s ∧ OwnSlots s ∧ (t.span.rng.kind ≠ 1 ∨ t.span.apt = true ∨ s.isSealed q t.span.idx = true)) ∧
    (∃ (s : State) (p l hpa q : Nat) (t : Tgt) (mv : Meta), s.arrive p l hpa = .ok q t ∧ HostIdle s ∧ OwnSlots s ∧ s.pb.range? q t.span.idx = some t.span.rng ∧ t.span.rng.kind = 1 ∧ t.span.apt = false ∧ s.isSealed q t.span.idx = false ∧ s.host.snoop = [] ∧ s.host.bi = [] ∧ (mv = .any ∨ mv = .shared)) ∧
    (∃ (s : State) (p l line : Nat) (b : BiOut), s.biFind line (ldIdx p l) = some b ∧ (s.port p).link = .l0 ∧ s.ideBlocked p = false ∧ HostIdle s ∧ s.host.bi = [b] ∧ (s.nearFind (line / 64)).isSome = true) ∧
    (∃ (s : State) (p l line : Nat) (b : BiOut), s.biFind line (ldIdx p l) = some b ∧ b.sentAt.getD 0 + s.biLimit p ≤ s.clk.hmesh ∧ HostIdle s) :=
  ⟨⟨demo, 0, 0, 0x1FC0, 1, { span := spanH, off := 0x1FC0, dpa := 0x1FC0, line := 0x7F }, by unfold PlainNear HostIdle OwnSlots; decide +kernel⟩,
   ⟨demo, 0, 0, 0x3000, 1, { span := spanH, off := 0x3000, dpa := 0x3000, line := 0xC0 }, by unfold HostIdle OwnSlots; decide +kernel⟩,
   ⟨demo, 0, 0, 0x1FC0, 1, { span := spanH, off := 0x1FC0, dpa := 0x1FC0, line := 0x7F }, by unfold HostIdle OwnSlots; decide +kernel⟩,
   ⟨demo, 0, 0, 0x10000000, 1, { span := { spanH with base := 0x10000000, idx := 1, rng := rngDb }, off := 0, dpa := 0x10000000, line := 0x8000 }, .any, by unfold HostIdle OwnSlots; decide +kernel⟩,
   ⟨{ demoHost (fun h => { h with bi := [{ line := 0x8000, ldIdx := 0, inv := true, sentAt := some 0 }] }) with mem := { tags := [near 0x200] } }, 0, 0, 0x8000, { line := 0x8000, ldIdx := 0, inv := true, sentAt := some 0 }, by unfold HostIdle; decide +kernel⟩,
   ⟨demoHost (fun h => { h with bi := [{ line := 0x8000, ldIdx := 0, inv := true, sentAt := some 0 }] }), 0, 0, 0x8000, { line := 0x8000, ldIdx := 0, inv := true, sentAt := some 0 }, by unfold HostIdle; decide +kernel⟩⟩

theorem witness_DataReturn :
    (∃ (s : State) (r : HostReq) (rng : PbRange), s.host.reqs = [r] ∧ s.host.ingress = [] ∧ OwnSlots s ∧ r.op = .rd ∧ r.wait = .deep ∧ s.pb.range? r.part r.range = some rng ∧ rng.kind ≠ 1 ∧ 2 ≤ s.hintAt rng r.range (64 * r.line - rng.maBase) ∧ s.ent? (r.line / 64) = none ∧ s.nearFind (r.line / 64) = none ∧ s.deepStopped (r.line / 64) r.part 64 = false ∧ s.deepTurn { line := r.line, act := r.part, rd := true } = true ∧ s.ras.recov = []) ∧
    (∃ (s : State) (pair line act : Nat) (d : Bytes) (poison : Bool) (rest : List MergeEnt), s.mergeQ pair = { line := line, op := .full d poison, act := act } :: rest ∧ s.deepHeld (line / 64) = false ∧ s.mayGrant pair act 64 = true ∧ (s.drains (line / 64) = true ∨ s.deepTurn { line := line, act := act, rd := false } = true)) ∧
    (∃ (s : State) (p blk : Nat) (r : HostReq) (bs : Bytes), s.host.reqs = [r] ∧ s.host.ingress = [] ∧ OwnSlots s ∧ r.wait = .expand ∧ s.expander r.port = s.expander p ∧ r.line / 64 = blk ∧ s.isFailed (.egressExpander (s.expander p)) = false ∧ s.mem.expanding = [] ∧ s.plainBlock blk = .ok bs) :=
  ⟨⟨{ demoPart (fun x => { x with pageHint := [(0, 2)] }) with host := { demo.host with reqs := [readOf .deep] } }, readOf .deep, rngH, by unfold OwnSlots; decide +kernel⟩,
   ⟨demoMem (fun m => { m with merge := [(0, [{ line := 0, op := .full [] false, act := 1 }])] }), 0, 0, 1, [], false, [], by decide +kernel⟩,
   ⟨demoHost (fun h => { h with reqs := [readOf .expand] }), 0, 3, readOf .expand, memBytes [] 0x3000 4096, by and_intros <;> first | decide +kernel | rfl | (unfold OwnSlots; decide +kernel)⟩⟩

theorem witness_IdeKeys :
    (∃ (s : State) (p l session : Nat) (st : IdeStream), s.sessionLd p session = some l ∧ ideStreamOk st = true ∧ (s.ide p st).st ≠ .secure) ∧
    (∃ (s : State) (p l session : Nat) (st : IdeStream), s.sessionLd p session = some l ∧ ideStreamOk st = true ∧ (s.ide p st).st = .secure) ∧
    (∃ (s : State) (p ks k : Nat) (st : IdeStream), (s.port p).link = .l0 ∧ (s.ide p st).st = .secure ∧ (s.ide p st).next = some (ks, k)) :=
  ⟨⟨demoLd (fun l => { l with spdm := [sess5] }), 0, 0, 5, .selective 3, by decide +kernel⟩,
   ⟨(demoLd (fun l => { l with spdm := [sess5] })).modPort 0 (fun x => { x with selective := [(3, { st := .secure })] }), 0, 0, 5, .selective 3, by decide +kernel⟩,
   ⟨demoPort (fun x => { x with cachemem := { st := .secure, next := some (1, 3) } }), 0, 1, 3, .cachemem, by decide +kernel⟩⟩

theorem witness_DoeAnswers :
    (∃ (s : State) (p l i v y : Nat), s.ldReach p l = true ∧ doeProtocols[i]? = some (v, y)) ∧
    (∃ (s : State) (p l v y : Nat), s.ldReach p l = true ∧ (v, y) ∉ doeProtocols) ∧
    (∃ (s : State) (p l n : Nat) (c : Cdat), s.ldReach p l = true ∧ (s.cdat p l)[n]? = some c) :=
  ⟨⟨demo, 0, 0, 3, 0x1E98, 2, by decide +kernel⟩,
   ⟨demo, 0, 0, 0x1E98, 3, by decide +kernel⟩,
   ⟨demo, 0, 0, 0, .dsmas 0 0 0x200000 false false, by decide +kernel⟩⟩

theorem witness_SpdmRequests :
    (∃ (s : State) (ep : SpdmEp) (slot : Nat), s.spdmUp ep = true ∧ slot ≠ 0) ∧
    (∃ (s : State) (ep : SpdmEp) (k : Nat), s.spdmUp ep = true ∧ 1 ≤ k ∧ k ≤ 6) :=
  ⟨⟨demo, .mctp, 1, by decide +kernel⟩,
   ⟨demo, .doe 0 0, 6, by decide +kernel⟩⟩

theorem witness_SpdmSessions :
    (∃ (s : State) (ep : SpdmEp), s.spdmUp ep = true ∧ (s.spdmSessions ep).length < 4) ∧
    (∃ (s : State) (ep : SpdmEp), s.spdmUp ep = true ∧ 4 ≤ (s.spdmSessions ep).length) ∧
    (∃ (s : State) (ep : SpdmEp) (k ph : Nat), s.spdmUp ep = true ∧ s.spdmSessions ep = [{ id := k, established := false, phase := ph }]) ∧
    (∃ (s : State) (ep : SpdmEp) (k ph : Nat), s.spdmUp ep = true ∧ s.spdmSessions ep = [{ id := k, established := true, phase := ph }]) :=
  ⟨⟨demoLd (fun l => { l with spdm := [sess5, sess5, sess5] }), .doe 0 0, by decide +kernel⟩,
   ⟨demoLd (fun l => { l with spdm := [sess5, sess5, sess5, sess5] }), .doe 0 0, by decide +kernel⟩,
   ⟨demoLd (fun l => { l with spdm := [{ sess5 with established := false }] }), .doe 0 0, 5, 0, by decide +kernel⟩,
   ⟨demoLd (fun l => { l with spdm := [sess5] }), .doe 0 0, 5, 0, by decide +kernel⟩⟩

theorem witness_FmApi : ∃ (s : State) (p : FmPath) (q : Nat) (alloc : _), (p = .fmLd q ∨ p = .i3c q) ∧ s.fmUp p = true ∧ s.mgmt.phase ≠ .safe ∧ alloc ≠ s.ldAllocs q :=
  ⟨demo, .fmLd 0, 0, [], by decide +kernel⟩

theorem witness_MailboxInformation :
    (∃ (s : State) (p l : Nat) (off : _) (len : _), s.ldReach p l = true ∧ s.mgmt.phase ≠ .safe ∧ off + len ≤ Config.commandEffectsLog.length) ∧
    (∃ (s : State) (p l : Nat), s.ldReach p l = true ∧ s.mgmt.phase ≠ .safe ∧ (s.part (s.barPart p l)).bg = none) ∧
    (∃ (s : State) (p l : Nat) (b : BgCmd), s.ldReach p l = true ∧ s.mgmt.phase ≠ .safe ∧ (s.part (s.barPart p l)).bg = some b) ∧
    (∃ (s : State) (p l : Nat), s.ldReach p l = true ∧ s.mgmt.phase = .safe) :=
  ⟨⟨demo, 0, 0, 0, 0, by decide +kernel⟩,
   ⟨demo, 0, 0, by decide +kernel⟩,
   ⟨demoPart (fun x => { x with bg := some { kind := 0, ldIdx := 0, base := 0, len := 0 } }), 0, 0, { kind := 0, ldIdx := 0, base := 0, len := 0 }, by decide +kernel⟩,
   ⟨demoMgmt (fun x => { x with phase := .safe }), 0, 0, by decide +kernel⟩⟩

theorem witness_MailboxUnsupported : ∃ (s : State) (p l op : Nat), s.ldReach p l = true ∧ s.mgmt.phase ≠ .safe ∧ mbListed op = false :=
  ⟨demo, 0, 0, 0x540A, by decide +kernel⟩

theorem witness_MailboxEventsAndSettings :
    (∃ (s : State) (p l log : Nat), s.ldReach p l = true ∧ log < 4 ∧ (s.logFrom (s.ldBookmark p l log)).1 = 0 ∧ (s.ld (ldIdx p l)).alerts = []) ∧
    (∃ (s : State) (p l log : Nat) (e : LogEnt), s.ldReach p l = true ∧ s.mgmt.phase ≠ .safe ∧ log < 4 ∧ (s.logFrom (s.ldBookmark p l log)).2.filter (s.inView p l log) = [e]) ∧
    (∃ (s : State) (p l : Nat), s.ldReach p l = true ∧ s.mgmt.phase ≠ .safe ∧ s.mgmt.timeKnown = false) ∧
    (∃ (s : State) (p l off : Nat), s.ldReach p l = true ∧ s.mgmt.phase ≠ .safe ∧ s.mgmt.timeKnown = true ∧ s.mgmt.timeOffset = (off : Int) ∧ 2 * s.clk.mgmt + off < 2 ^ 64) :=
  ⟨⟨demo, 0, 0, 3, by decide +kernel⟩,
   ⟨demoMgmt (fun x => { x with log := [entry], logNext := 1 }), 0, 0, 3, entry, by decide +kernel⟩,
   ⟨demo, 0, 0, by decide +kernel⟩,
   ⟨demoMgmt (fun x => { x with timeKnown := true, timeOffset := 5 }), 0, 0, 5, by decide +kernel⟩⟩

theorem witness_MailboxPoisonAndBackground :
    (∃ (s : State) (p l : Nat), s.ldReach p l = true ∧ s.mgmt.phase ≠ .safe ∧ s.pb.injectOk = false) ∧
    (∃ (s : State) (p l dpa line : Nat) (x : Span), s.ldReach p l = true ∧ s.mgmt.phase ≠ .safe ∧ s.pb.injectOk = true ∧ s.dpaLine p l dpa = some (x, line) ∧ dpa % 64 = 0 ∧ x.apt = false ∧ x.rng.regionId = 0 ∧ (s.part x.part).st = 0 ∧ (s.mem.poisonSrc.filter (fun e => e.2 == 2)).length < 64 ∧ isLocal (64 * line) = false ∧ s.nearFind (line / 64) = none) ∧
    (∃ (s : State) (p l dpa line : Nat) (x : Span), s.ldReach p l = true ∧ s.mgmt.phase ≠ .safe ∧ s.dpaLine p l dpa = some (x, line) ∧ dpa % 64 = 0 ∧ x.apt = false ∧ s.isSealed x.part x.idx = false ∧ x.rng.regionId = 0 ∧ (s.part x.part).st = 0 ∧ (s.nearFind (line / 64)).isSome = true) ∧
    (∃ (s : State) (p l dpa len : Nat), s.ldReach p l = true ∧ s.mgmt.phase ≠ .safe ∧ dpa % 64 = 0 ∧ len % 64 = 0 ∧ dpa + len ≤ s.ldCap p l ∧ (s.part (s.barPart p l)).bg = none) ∧
    (∃ (s : State) (p l : Nat), s.ldReach p l = true ∧ s.mgmt.phase = .reloading ∧ (s.part (s.barPart p l)).bg = none) ∧
    (∃ (s : State) (p l : Nat), s.ldReach p l = true ∧ s.mgmt.phase = .up ∧ NothingUnderWay s (s.barPart p l) ∧ (s.part (s.barPart p l)).bg = none) ∧
    (∃ (s : State) (p l : Nat) (b : BgCmd), s.ldReach p l = true ∧ s.mgmt.phase ≠ .safe ∧ (s.part (s.barPart p l)).bg = some b) ∧
    (∃ (s : State) (q : Nat) (b : BgCmd), (s.part q).bg = some b ∧ b.kind = 2) ∧
    (∃ (s : State) (q : Nat) (b : BgCmd), (s.part q).bg = some b ∧ b.kind ≠ 2 ∧ (s.part q).reset = none ∧ (s.part q).st = 3) :=
  ⟨⟨demo, 0, 0, by decide +kernel⟩,
   ⟨demoMgmt (fun x => { x with pb := { x.pb with injectOk := true } }), 0, 0, 0x3000, 0xC0, spanH, by decide +kernel⟩,
   ⟨demo, 0, 0, 0x1FC0, 0x7F, spanH, by decide +kernel⟩,
   ⟨demo, 0, 0, 0, 0x20000000, by decide +kernel⟩,
   ⟨demoMgmt (fun x => { x with phase := .reloading }), 0, 0, by decide +kernel⟩,
   ⟨demo, 0, 0, by unfold NothingUnderWay HostIdle OwnSlots; decide +kernel⟩,
   ⟨demoPart (fun x => { x with bg := some scanAll }), 0, 0, scanAll, by decide +kernel⟩,
   ⟨demoPart (fun x => { x with bg := some scanAll }), 1, scanAll, by decide +kernel⟩,
   ⟨demoPart (fun x => { x with st := 3, bg := some { scanAll with kind := 0 } }), 1, { scanAll with kind := 0 }, by decide +kernel⟩⟩

theorem witness_RingDoorbells :
    (∃ (s : State) (p l q n v : Nat) (r : PbRing), s.ldPart p l = some q ∧ s.pb.ringOf? q n = some r ∧ (s.part q).st = 0 ∧ (s.ring n).st ≠ 3 ∧ (v % 65536 + 65536 - (s.ring n).sqHead) % 65536 ≤ 2 ^ r.sqLog2) ∧
    (∃ (s : State) (p l q n v : Nat) (r : PbRing), s.ldPart p l = some q ∧ s.pb.ringOf? q n = some r ∧ (s.part q).st = 0 ∧ (s.ring n).st ≠ 3 ∧ 2 ^ r.sqLog2 < (v % 65536 + 65536 - (s.ring n).sqHead) % 65536) ∧
    (∃ (s : State) (p l q n v : Nat) (r : PbRing), s.ldPart p l = some q ∧ s.pb.ringOf? q n = some r ∧ (s.part q).st = 0 ∧ (s.ring n).st ≠ 3 ∧ (v % 65536 + 65536 - (s.ring n).cqHead) % 65536 ≤ ((s.ring n).cqTail + 65536 - (s.ring n).cqHead) % 65536) ∧
    (∃ (s : State) (p l q n v : Nat) (r : PbRing), s.ldPart p l = some q ∧ s.pb.ringOf? q n = some r ∧ (s.part q).st = 0 ∧ (s.ring n).st ≠ 3 ∧ ((s.ring n).cqTail + 65536 - (s.ring n).cqHead) % 65536 < (v % 65536 + 65536 - (s.ring n).cqHead) % 65536) ∧
    (∃ (s : State) (p l q n v : Nat) (r : PbRing), s.ldPart p l = some q ∧ s.pb.ringOf? q n = some r ∧ (s.part q).st = 0 ∧ v % 2 = 1) ∧
    (∃ (s : State) (p l q n v : Nat) (r : PbRing), s.ldPart p l = some q ∧ s.pb.ringOf? q n = some r ∧ (s.part q).st = 0 ∧ v % 2 = 0 ∧ (s.ring n).mask = true ∧ (s.ring n).maskedInt = true ∧ (s.ld r.intLd).msixEnable = true ∧ (s.ld r.intLd).funcMask = false ∧ setHas (s.ld r.intLd).unmasked r.vector = true) ∧
    (∃ (s : State) (p l q n : Nat) (r : PbRing), s.ldPart p l = some q ∧ s.pb.ringOf? q n = some r ∧ (s.part q).st ≠ 0) :=
  ⟨⟨demo, 0, 0, 1, 0, 16, ring0, by decide +kernel⟩,
   ⟨demo, 0, 0, 1, 0, 17, ring0, by decide +kernel⟩,
   ⟨demo, 0, 0, 1, 0, 0, ring0, by decide +kernel⟩,
   ⟨demo, 0, 0, 1, 0, 1, ring0, by decide +kernel⟩,
   ⟨demo, 0, 0, 1, 0, 1, ring0, by decide +kernel⟩,
   ⟨demo.modRing 0 (fun x => { x with mask := true, maskedInt := true }), 0, 0, 1, 0, 0, ring0, by decide +kernel⟩,
   ⟨demoPart (fun x => { x with st := 1 }), 0, 0, 1, 0, ring0, by decide +kernel⟩⟩

theorem witness_DoorbellSlots :
    (∃ (s : State) (p l q n : Nat) (off : _), s.ldPart p l = some q ∧ n < 4096 ∧ off < 0x40 ∧ off % 4 = 0 ∧ s.pb.ringOf? q n = none) ∧
    (∃ (s : State) (p l q n : Nat) (off : _) (r : _), s.ldPart p l = some q ∧ n < 4096 ∧ 0x20 ≤ off ∧ off < 0x40 ∧ off % 4 = 0 ∧ s.pb.ringOf? q n = some r) :=
  ⟨⟨demo, 0, 0, 1, 4095, 0x3C, by decide +kernel⟩,
   ⟨demo, 0, 0, 1, 0, 0x20, ring0, by decide +kernel⟩⟩

theorem witness_DescriptorsAndCompletions :
    (∃ (s : State) (r : PbRing), s.dataUp = true ∧ s.disp.ops = [] ∧ s.noteEligible.nextRing = some r) ∧
    (∃ (s : State) (o : Op) (r : PbRing) (x : Opd), s.disp.ops = [o] ∧ o.phase = .ended ∧ o.posting = false ∧ o.int = false ∧ s.pb.ring? o.ring = some r ∧ s.opd o.part (r.cqBase + 16 * ((s.ring o.ring).cqTail % 2 ^ r.cqLog2)) 16 = .ok x ∧ x.rng.regionId = 0 ∧ x.off % 16 = 0 ∧ (s.nearFind (x.line (x.off / 64) / 64)).isSome = true ∧ OwnSlots s ∧ s.gol.sealedRanges = []) ∧
    (∃ (s : State) (p l v q n : Nat) (t0 : Nat), s.disp.coal = [{ ldIdx := ldIdx p l, vector := v, count := n, since := t0 }] ∧ s.pb.partOfLd (ldIdx p l) = some q ∧ t0 + 1400 * (s.coalCfg q v).2 ≤ s.clk.hmesh ∧ (s.ld (ldIdx p l)).msixEnable = true ∧ (s.ld (ldIdx p l)).funcMask = false ∧ setHas (s.ld (ldIdx p l)).unmasked v = true) :=
  ⟨⟨demo.modRing 0 (fun x => { x with sqTail := 1 }), ring0, by decide +kernel⟩,
   ⟨withOp demo { opOf 0 [] with phase := .ended }, { opOf 0 [] with phase := .ended }, ring0, { idx := 0, rng := rngH, off := 0x1000, len := 16 }, by unfold OwnSlots; decide +kernel⟩,
   ⟨{ demo with disp := { coal := [{ ldIdx := 0, vector := 1, count := 3, since := 0 }] } }, 0, 0, 1, 1, 3, 0, by decide +kernel⟩⟩

theorem witness_RingAndPartitionResets :
    (∃ (s : State) (p l q n v : Nat) (r : PbRing), s.ldPart p l = some q ∧ s.pb.ringOf? q n = some r ∧ v % 2 = 1 ∧ (s.part q).st = 0 ∧ (s.ring n).st ≠ 3 ∧ s.disp.ops = [] ∧ HostIdle s ∧ OwnSlots s) ∧
    (∃ (s : State) (p l q n : Nat) (r : PbRing), s.ldPart p l = some q ∧ s.pb.ringOf? q n = some r ∧ n < 4096 ∧ (s.ring n).st = 3) ∧
    (∃ (s : State) (n : Nat), (s.ring n).st = 3 ∧ s.ringOps n = 0) ∧
    (∃ (s : State) (n : Nat), (s.ring n).st = 3 ∧ s.ringOps n ≠ 0) ∧
    (∃ (s : State) (p l q v : Nat), s.ldPart p l = some q ∧ s.dataUp = true ∧ v < 2 ^ 32 ∧ v / 65536 = 0xC0DE ∧ v % 64 = q ∧ NothingUnderWay s q) ∧
    (∃ (s : State) (p l q v : Nat) (j : _), s.ldPart p l = some q ∧ s.dataUp = true ∧ v < 2 ^ 32 ∧ v / 65536 = 0xC0DE ∧ v % 64 = q ∧ (s.part q).reset = some j) ∧
    (∃ (s : State) (p l q v : Nat), s.ldPart p l = some q ∧ v < 2 ^ 32 ∧ (v / 65536 ≠ 0xC0DE ∨ v % 64 ≠ q)) ∧
    (∃ (s : State) (q : Nat) (j : ResetJob), s.dataUp = true ∧ s.opsOf q = [] ∧ (s.part q).reset = some j ∧ j.newKey = false ∧ j.mailbox = false ∧ s.mem.tags = [] ∧ OwnSlots s) :=
  ⟨⟨demo, 0, 0, 1, 0, 1, ring0, by unfold HostIdle OwnSlots; decide +kernel⟩,
   ⟨demo.modRing 0 (fun x => { x with st := 3 }), 0, 0, 1, 0, ring0, by decide +kernel⟩,
   ⟨demo.modRing 0 (fun x => { x with st := 3 }), 0, by decide +kernel⟩,
   ⟨withOp (demo.modRing 0 (fun x => { x with st := 3 })) (opOf 0 []), 0, by decide +kernel⟩,
   ⟨demo, 0, 0, 1, 0xC0DE0001, by unfold NothingUnderWay HostIdle OwnSlots; decide +kernel⟩,
   ⟨demoPart (fun x => { x with st := 1, reset := some job0 }), 0, 0, 1, 0xC0DE0001, job0, by decide +kernel⟩,
   ⟨demo, 0, 0, 1, 0xC0DE0002, by decide +kernel⟩,
   ⟨{ demoPart (fun x => { x with st := 1, reset := some job0 }) with mem := {} }, 1, job0, by unfold OwnSlots; decide +kernel⟩⟩

theorem witness_StagedDataOperations :
    (∃ (s : State) (id : Nat) (o : Op) (a : _) (b : _), Quiet s ∧ LocalOperands s o ∧ Turn s id 0x02 o ∧ s.operand o 0 = some a ∧ s.operand o 1 = some b) ∧
    (∃ (s : State) (id : Nat) (o : Op) (b : _), Quiet s ∧ LocalOperands s o ∧ Turn s id 0x03 o ∧ s.operand o 1 = some b) ∧
    (∃ (s : State) (id : Nat) (o : Op), Quiet s ∧ LocalOperands s o ∧ Turn s id 0x48 o) ∧
    (∃ (s : State) (id : Nat) (o : Op) (a : _) (b : _) (c : _), Quiet s ∧ LocalOperands s o ∧ Turn s id 0x20 o ∧ s.operand o 0 = some a ∧ s.operand o 1 = some b ∧ s.operand o 2 = some c) ∧
    (∃ (s : State) (id : Nat) (o : Op), Quiet s ∧ LocalOperands s o ∧ Turn s id 0x21 o) ∧
    (∃ (s : State) (id : Nat) (o : Op) (a : _), Quiet s ∧ LocalOperands s o ∧ Turn s id 0x22 o ∧ s.operand o 0 = some a) ∧
    (∃ (s : State) (id : Nat) (o : Op) (a : _) (b : _) (c : _), Quiet s ∧ LocalOperands s o ∧ Turn s id 0x30 o ∧ bit o.flags 2 = true ∧ s.operand o 0 = some a ∧ s.operand o 1 = some b ∧ s.operand o 2 = some c) ∧
    (∃ (s : State) (id : Nat) (o : Op) (a : _) (b : _) (c : _), Quiet s ∧ LocalOperands s o ∧ Turn s id 0x31 o ∧ bit o.flags 2 = true ∧ s.operand o 0 = some a ∧ s.operand o 1 = some b ∧ s.operand o 2 = some c) ∧
    (∃ (s : State) (id : Nat) (o : Op) (a : _) (b : _) (c : _), Quiet s ∧ LocalOperands s o ∧ Turn s id 0x38 o ∧ s.operand o 0 = some a ∧ s.operand o 1 = some b ∧ s.operand o 2 = some c) :=
  ⟨⟨withOp demo opCopy, 4, opCopy, opdOf (withOp demo opCopy) opCopy 0, opdOf (withOp demo opCopy) opCopy 1, quiet_of (by decide +kernel) (by decide +kernel) (by decide +kernel) (by decide +kernel), localOperands_of (by decide +kernel), by unfold Turn; decide +kernel⟩,
   ⟨withOp demo opFill, 4, opFill, opdOf (withOp demo opFill) opFill 1, quiet_of (by decide +kernel) (by decide +kernel) (by decide +kernel) (by decide +kernel), localOperands_of (by decide +kernel), by unfold Turn; decide +kernel⟩,
   ⟨withOp demo (opOf 0x48 []), 4, opOf 0x48 [], quiet_of (by decide +kernel) (by decide +kernel) (by decide +kernel) (by decide +kernel), localOperands_of (by decide +kernel), by unfold Turn; decide +kernel⟩,
   ⟨withOp demo opGemm, 4, opGemm, opdOf (withOp demo opGemm) opGemm 0, opdOf (withOp demo opGemm) opGemm 1, opdOf (withOp demo opGemm) opGemm 2, quiet_of (by decide +kernel) (by decide +kernel) (by decide +kernel) (by decide +kernel), localOperands_of (by decide +kernel), by unfold Turn; decide +kernel⟩,
   ⟨withOp demo (opOf 0x21 [(48, 4, 1)]), 4, opOf 0x21 [(48, 4, 1)], quiet_of (by decide +kernel) (by decide +kernel) (by decide +kernel) (by decide +kernel), localOperands_of (by decide +kernel), by unfold Turn; decide +kernel⟩,
   ⟨withOp demo opOptim, 4, opOptim, opdOf (withOp demo opOptim) opOptim 0, quiet_of (by decide +kernel) (by decide +kernel) (by decide +kernel) (by decide +kernel), localOperands_of (by decide +kernel), by unfold Turn; decide +kernel⟩,
   ⟨withOp demo (opIndexed 0x30), 4, opIndexed 0x30, opdOf (withOp demo (opIndexed 0x30)) (opIndexed 0x30) 0, opdOf (withOp demo (opIndexed 0x30)) (opIndexed 0x30) 1, opdOf (withOp demo (opIndexed 0x30)) (opIndexed 0x30) 2, quiet_of (by decide +kernel) (by decide +kernel) (by decide +kernel) (by decide +kernel), localOperands_of (by decide +kernel), by unfold Turn; decide +kernel⟩,
   ⟨withOp demo (opIndexed 0x31), 4, opIndexed 0x31, opdOf (withOp demo (opIndexed 0x31)) (opIndexed 0x31) 0, opdOf (withOp demo (opIndexed 0x31)) (opIndexed 0x31) 1, opdOf (withOp demo (opIndexed 0x31)) (opIndexed 0x31) 2, quiet_of (by decide +kernel) (by decide +kernel) (by decide +kernel) (by decide +kernel), localOperands_of (by decide +kernel), by unfold Turn; decide +kernel⟩,
   ⟨withOp demo opSim, 4, opSim, opdOf (withOp demo opSim) opSim 0, opdOf (withOp demo opSim) opSim 1, opdOf (withOp demo opSim) opSim 2, quiet_of (by decide +kernel) (by decide +kernel) (by decide +kernel) (by decide +kernel), localOperands_of (by decide +kernel), by unfold Turn; decide +kernel⟩⟩

theorem witness_StagedControlOperations :
    (∃ (s : State) (id : Nat) (o : Op), OwnSlots s ∧ Turn s id 0x00 o) ∧
    (∃ (s : State) (id : Nat) (o : Op), OwnSlots s ∧ Turn s id 0x01 o) ∧
    (∃ (s : State) (id : Nat) (o : Op), OwnSlots s ∧ Turn s id 0x19 o ∧ o.fieldAt 24 2 = 0) ∧
    (∃ (s : State) (id : Nat) (o : Op) (x : _) (cs : _), OwnSlots s ∧ Turn s id 0x19 o ∧ o.fieldAt 24 2 ≠ 0 ∧ Quiet s ∧ LocalOperands s o ∧ s.operand o 0 = some x ∧ (∀ b ∈ spanBlks x.off x.len, (s.nearFind (x.blk b)).isSome = true) ∧ s.readSheet o.part (o.fieldAt 26 2) ((List.range (o.fieldAt 24 2)).map (fun i => (s.opBytes o x (x.off + 32 * i) 32, s.opBad o x (x.off + 32 * i) 32))) = .ok cs ∧ cs ≠ []) ∧
    (∃ (s : State) (id : Nat) (o : Op) (x : _), OwnSlots s ∧ Turn s id 0x18 o ∧ s.operand o 0 = some x ∧ 2 ≤ o.flags % 8 ∧ o.flags % 8 ≤ 3 ∧ bit o.flags 3 = false ∧ x.rng.part = o.part ∧ x.rng.maBase % pageBytes = 0 ∧ x.off % pageBytes = 0 ∧ x.len % pageBytes = 0 ∧ x.rng.regionId = 0) ∧
    (∃ (s : State) (id : Nat) (o : Op) (x : _), OwnSlots s ∧ Turn s id 0x18 o ∧ s.operand o 0 = some x ∧ bit o.flags 3 = true) :=
  ⟨⟨withOp demo (opOf 0x00 []), 4, opOf 0x00 [], by unfold Turn OwnSlots; decide +kernel⟩,
   ⟨withOp demo (opOf 0x01 []), 4, opOf 0x01 [], by unfold Turn OwnSlots; decide +kernel⟩,
   ⟨withOp demo (opOf 0x19 []), 4, opOf 0x19 [], by unfold Turn OwnSlots; decide +kernel⟩,
   ⟨sheetIn, 4, opPrefetch, opdOf sheetIn opPrefetch 0, [cueOf sheet0], by unfold OwnSlots; decide +kernel, by unfold Turn; decide +kernel, by decide +kernel, quiet_of (by decide +kernel) (by decide +kernel) (by decide +kernel) (by decide +kernel), localOperands_of (by decide +kernel), by decide +kernel, by decide +kernel, by decide +kernel, by decide +kernel⟩,
   ⟨withOp demo opPlace, 4, opPlace, opdOf (withOp demo opPlace) opPlace 0, by unfold Turn OwnSlots; decide +kernel⟩,
   ⟨withOp demo (opOf 0x18 [(6, 2, 8), (24, 8, 0x200000)]), 4, opOf 0x18 [(6, 2, 8), (24, 8, 0x200000)], opdOf (withOp demo opPlace) opPlace 0, by unfold Turn OwnSlots; decide +kernel⟩⟩

theorem witness_FillAndCopyStore :
    (∃ (s : State) (id : Nat) (o : Op) (b : Opd), Quiet s ∧ LocalOperands s o ∧ s.operand o 1 = some b ∧ b.len = 64 ∧ b.off % 64 = 0 ∧ (s.nearFind (b.line (b.off / 64) / 64)).isSome = true ∧ Turn s id 0x03 o) ∧
    (∃ (s : State) (id : Nat) (o : Op) (b : Opd) (a : _), Quiet s ∧ LocalOperands s o ∧ s.operand o 1 = some b ∧ b.len = 64 ∧ b.off % 64 = 0 ∧ (s.nearFind (b.line (b.off / 64) / 64)).isSome = true ∧ Turn s id 0x02 o ∧ s.operand o 0 = some a ∧ a.len = 64 ∧ a.off % 64 = 0 ∧ (s.nearFind (a.line (a.off / 64) / 64)).isSome = true) :=
  ⟨⟨withOp demo opFill, 4, opFill, opdOf (withOp demo opFill) opFill 1, quiet_of (by decide +kernel) (by decide +kernel) (by decide +kernel) (by decide +kernel), localOperands_of (by decide +kernel), by unfold Turn; decide +kernel⟩,
   ⟨withOp demo opCopy, 4, opCopy, opdOf (withOp demo opCopy) opCopy 1, opdOf (withOp demo opCopy) opCopy 0, quiet_of (by decide +kernel) (by decide +kernel) (by decide +kernel) (by decide +kernel), localOperands_of (by decide +kernel), by unfold Turn; decide +kernel⟩⟩

theorem witness_SealAndUnseal :
    (∃ (s : State) (id : Nat) (o : Op) (r : PbRange), s.pb.range? o.part o.entry = some r ∧ r.regionId = 0 ∧ r.kind = 0 ∧ OwnSlots s ∧ Turn s id 0x10 o ∧ o.sealAdmitted = false ∧ s.slotsShort o r = false ∧ s.isSealed o.part o.entry = false) ∧
    (∃ (s : State) (id : Nat) (o : Op) (r : PbRange), s.pb.range? o.part o.entry = some r ∧ r.regionId = 0 ∧ r.kind = 0 ∧ OwnSlots s ∧ Turn s id 0x10 o ∧ o.sealAdmitted = true ∧ o.stage = 0 ∧ s.sealTurn o.part o.entry id = true) ∧
    (∃ (s : State) (id : Nat) (o : Op) (r : PbRange), s.pb.range? o.part o.entry = some r ∧ r.regionId = 0 ∧ r.kind = 0 ∧ OwnSlots s ∧ Turn s id 0x10 o ∧ o.sealAdmitted = true ∧ o.stage = 1 ∧ o.work = [] ∧ s.sealTurn o.part o.entry id = true) ∧
    (∃ (s : State) (id : Nat) (o : Op) (r : PbRange) (i : _) (k : _) (rest : _), s.pb.range? o.part o.entry = some r ∧ r.regionId = 0 ∧ r.kind = 0 ∧ OwnSlots s ∧ Turn s id 0x10 o ∧ o.stage = 1 ∧ o.work = i :: k :: rest ∧ (∀ p, (s.part p).cue.cues = []) ∧ s.mem.cueArea = [] ∧ s.ras.recov = [] ∧ (s.ent? (r.addr o.entry (4096 * i) / 4096) = none ∨ ∃ bs, s.plainBlock (r.addr o.entry (4096 * i) / 4096) = .ok bs)) ∧
    (∃ (s : State) (id : Nat) (o : Op) (r : PbRange), s.pb.range? o.part o.entry = some r ∧ r.regionId = 0 ∧ r.kind = 0 ∧ OwnSlots s ∧ Turn s id 0x11 o ∧ s.isSealed o.part o.entry = false) ∧
    (∃ (s : State) (id : Nat) (o : Op) (r : PbRange) (x : _), s.pb.range? o.part o.entry = some r ∧ r.regionId = 0 ∧ r.kind = 0 ∧ OwnSlots s ∧ Turn s id 0x11 o ∧ s.gol.sealedRanges = [x] ∧ x.part = o.part ∧ x.range = o.entry ∧ x.queue = [id] ∧ x.keep = [] ∧ (∀ p, (s.part p).cue.cues = []) ∧ s.mem.cueArea = [] ∧ s.ras.recov = [] ∧ (∀ i, i < r.size / 4096 → s.ent? (r.maBase / 4096 + i) = none ∨ ∃ bs, s.plainBlock (r.maBase / 4096 + i) = .ok bs)) :=
  ⟨⟨withOp demo opSeal, 4, opSeal, rngH, by unfold Turn OwnSlots; decide +kernel⟩,
   ⟨withOp { demo with gol := { sealedRanges := [sealed0] } } { opSeal with sealAdmitted := true }, 4, { opSeal with sealAdmitted := true }, rngH, by unfold Turn OwnSlots; decide +kernel⟩,
   ⟨withOp { demo with gol := { sealedRanges := [sealed0] } } { opSeal with sealAdmitted := true, stage := 1 }, 4, { opSeal with sealAdmitted := true, stage := 1 }, rngH, by unfold Turn OwnSlots; decide +kernel⟩,
   ⟨withOp demo { opSeal with stage := 1, work := [511, 0] }, 4, { opSeal with stage := 1, work := [511, 0] }, rngH, 511, 0, [], by decide +kernel, by decide +kernel, by decide +kernel, by unfold OwnSlots; decide +kernel, by unfold Turn; decide +kernel, by decide +kernel, by decide +kernel, noCues_of (by decide +kernel), by decide +kernel, by decide +kernel, .inl (by decide +kernel)⟩,
   ⟨withOp demo (opOf 0x11 []), 4, opOf 0x11 [], rngH, by unfold Turn OwnSlots; decide +kernel⟩,
   ⟨withOp { demo with gol := { sealedRanges := [sealed0] } } (opOf 0x11 []), 4, opOf 0x11 [], rngH, sealed0, by decide +kernel, by decide +kernel, by decide +kernel, by unfold OwnSlots; decide +kernel, by unfold Turn; decide +kernel, by decide +kernel, by decide +kernel, by decide +kernel, by decide +kernel, by decide +kernel, noCues_of (by decide +kernel), by decide +kernel, by decide +kernel, fun _ _ => .inl rfl⟩⟩

theorem witness_RegionOperations :
    (∃ (s : State) (id : Nat) (o : Op) (g : PbRegion) (a : _) (b : _) (k : _), s.regionOf o = some g ∧ LocalOperands s o ∧ Turn s id 0x40 o ∧ o.stage = 0 ∧ s.operand o 0 = some a ∧ s.operand o 1 = some b ∧ s.isHome g = true ∧ o.fieldAt 40 8 = ((s.region g.rid).current g.nslots).2 ∧ (s.region g.rid).sealedCur = false ∧ (s.region g.rid).find g.nslots (fun v => v.st == .free) = some k ∧ k ≠ ((s.region g.rid).current g.nslots).1 ∧ s.homeBusy g.rid = false ∧ (s.region g.rid).inq = []) ∧
    (∃ (s : State) (id : Nat) (o : Op) (g : PbRegion) (a : _) (b : _) (k : _) (v : _), s.regionOf o = some g ∧ LocalOperands s o ∧ Turn s id 0x40 o ∧ o.stage = 5 ∧ s.operand o 0 = some a ∧ s.operand o 1 = some b ∧ o.rsp = some (0, k, v)) ∧
    (∃ (s : State) (id : Nat) (o : Op) (g : PbRegion) (b : _) (k : _) (v : _), s.regionOf o = some g ∧ LocalOperands s o ∧ Turn s id 0x41 o ∧ o.stage = 1 ∧ s.operand o 1 = some b ∧ o.rsp = some (0, k, v)) ∧
    (∃ (s : State) (id : Nat) (o : Op) (g : PbRegion) (k : _) (v : _), s.regionOf o = some g ∧ LocalOperands s o ∧ Turn s id 0x42 o ∧ o.stage = 1 ∧ o.rsp = some (0, k, v)) :=
  ⟨⟨withOp (homed demo) opPublish, 4, opPublish, reg5, opdOf demo opPublish 0, opdOf demo opPublish 1, 1, by decide +kernel, localOperands_of (by decide +kernel), by unfold Turn; decide +kernel⟩,
   ⟨withOp (homed demo) { opPublish with stage := 5, rsp := some (0, 1, 8) }, 4, { opPublish with stage := 5, rsp := some (0, 1, 8) }, reg5, opdOf demo opPublish 0, opdOf demo opPublish 1, 1, 8, by decide +kernel, localOperands_of (by decide +kernel), by unfold Turn; decide +kernel⟩,
   ⟨withOp (homed demo) { opAcquire with stage := 1, rsp := some (0, 1, 8) }, 4, { opAcquire with stage := 1, rsp := some (0, 1, 8) }, reg5, opdOf demo opAcquire 1, 1, 8, by decide +kernel, localOperands_of (by decide +kernel), by unfold Turn; decide +kernel⟩,
   ⟨withOp (homed demo) { opRelease with stage := 1, rsp := some (0, 1, 8) }, 4, { opRelease with stage := 1, rsp := some (0, 1, 8) }, reg5, 1, 8, by decide +kernel, localOperands_of (by decide +kernel), by unfold Turn; decide +kernel⟩⟩

theorem witness_ReduceJoins :
    (∃ (s : State) (id k : Nat) (o : Op) (g : PbGroup) (a b : Opd), Turn s id 0x28 o ∧ o.stage = 0 ∧ s.pb.group? o.rGroup = some g ∧ s.operand o 0 = some a ∧ s.operand o 1 = some b ∧ s.rankIn g = some k ∧ s.redn? g.group o.rSeq = none ∧ 2 ≤ g.members.length) ∧
    (∃ (s : State) (id : Nat) (o : Op) (g : PbGroup), s.op? id = some o ∧ o.opcode = 0x28 ∧ o.phase ≠ .ended ∧ o.checked = true ∧ o.stage = 0 ∧ s.pb.group? o.rGroup = some g ∧ o.checkedAt + 1400000 * g.joinLimit ≤ s.clk.hmesh) :=
  ⟨⟨withOp demo opReduce, 4, 0, opReduce, grp3, opdOf demo opReduce 0, opdOf demo opReduce 1, by unfold Turn; decide +kernel⟩,
   ⟨withOp demo opReduce, 4, opReduce, grp3, by decide +kernel⟩⟩

theorem witness_TierRegisters :
    (∃ (s : State) (p l q n v : Nat) (r : PbRange), s.ldPart p l = some q ∧ s.pb.range? q n = some r ∧ v < 4 ∧ tabFind (s.part q).evicting n = none) ∧
    (∃ (s : State) (p l q n v : Nat), s.ldPart p l = some q ∧ ((s.pb.rangesOf q).length ≤ n ∨ 4 ≤ v % 8)) ∧
    (∃ (s : State) (p l q n : Nat), s.ldPart p l = some q ∧ n < 256 ∧ s.pb.range? q n = none) ∧
    (∃ (s : State) (p l q n v : Nat) (r : PbRange) (h : Option Nat), s.ldPart p l = some q ∧ s.pb.range? q n = some r ∧ v < 4 ∧ tabFind (s.part q).evicting n = some h) ∧
    (∃ (s : State) (q n h : Nat) (r : PbRange), s.pb.range? q n = some r ∧ tabFind (s.part q).evicting n = some (some h)) :=
  ⟨⟨demo, 0, 0, 1, 0, 3, rngH, by decide +kernel⟩,
   ⟨demo, 0, 0, 1, 3, 4, by decide +kernel⟩,
   ⟨demo, 0, 0, 1, 3, by decide +kernel⟩,
   ⟨demoPart (fun x => { x with evicting := [(0, none)] }), 0, 0, 1, 0, 3, rngH, none, by decide +kernel⟩,
   ⟨demoPart (fun x => { x with evicting := [(0, some 2)] }), 1, 0, 2, rngH, by decide +kernel⟩⟩

theorem witness_CueRegisters :
    (∃ (s : State) (p l q : Nat), s.ldPart p l = some q ∧ (s.part q).cue.loaded = false) ∧
    (∃ (s : State) (p l q v : Nat), s.ldPart p l = some q ∧ (s.part q).cue.loaded = true ∧ v < (s.part q).cue.layerCount ∧ v < 65536) ∧
    (∃ (s : State) (p l q v : Nat), s.ldPart p l = some q ∧ v < 2 ^ 32) ∧
    (∃ (s : State) (p l q v : Nat), s.ldPart p l = some q ∧ (s.part q).cue.groupOpen (v / 2 ^ 48 % 2 ^ 16) (v / 2 ^ 40 % 256) = true ∧ v / 2 ^ 32 % 2 = 1 ∧ (v / 2 ^ 48 % 2 ^ 16, v / 2 ^ 40 % 256) ∉ (s.part q).cue.finals ∧ v < 2 ^ 64) ∧
    (∃ (s : State) (p l q : Nat), s.ldPart p l = some q ∧ (s.part q).cue.cues = []) ∧
    (∃ (s : State) (p l q v : Nat) (c : Cue), s.ldPart p l = some q ∧ (s.part q).cue.cues = [c] ∧ c.layer = v / 2 ^ 48 % 2 ^ 16 ∧ c.group = v / 2 ^ 40 % 256 ∧ c.group ≠ 0 ∧ c.promoted = false ∧ c.st ≠ .done ∧ v < 2 ^ 64) :=
  ⟨⟨demo, 0, 0, 1, by decide +kernel⟩,
   ⟨demoCue id, 0, 0, 1, 1, by decide +kernel⟩,
   ⟨demo, 0, 0, 1, 0xFFFFFFFF, by decide +kernel⟩,
   ⟨demoCue (fun h => { h with cues := [cue1] }), 0, 0, 1, 2 ^ 48 + 2 ^ 40 + 2 ^ 32, by decide +kernel⟩,
   ⟨demo, 0, 0, 1, by decide +kernel⟩,
   ⟨demoCue (fun h => { h with cues := [cue1] }), 0, 0, 1, 2 ^ 48 + 2 ^ 40, cue1, by decide +kernel⟩⟩

theorem witness_CueRunner :
    (∃ (s : State) (p i : Nat) (held : List Nat) (c : Cue) (r : PbRange) (idx off : Nat), s.dataUp = true ∧ p < 64 ∧ p ∉ held ∧ s.nextCue p = some (i, c) ∧ (∀ q, q ≠ p → q ∈ held ∨ s.nextCue q = none) ∧ (s.part p).cue.cues[i]? = some c ∧ s.cueAddr p c c.issued = some (r, idx, off) ∧ r.regionId = 0 ∧ s.cueMay p c r idx off = true ∧ s.nearFind (r.addr idx off / 4096) = none) ∧
    (∃ (s : State) (p k : Nat) (c : Cue) (r : PbRange) (idx off : Nat), s.dataUp = true ∧ (s.part p).cue.cues = [c] ∧ s.cueAddr p c k = some (r, idx, off) ∧ r.regionId = 0 ∧ c.out = [k] ∧ k < c.blocks ∧ c.buffer = false ∧ (s.nearFind (r.addr idx off / 4096)).isSome = true ∧ r.maBase % 4096 = 0 ∧ c.addr % 4096 = 0) ∧
    (∃ (s : State) (p k blk : Nat) (c : Cue) (r : PbRange) (idx off : Nat), s.dataUp = true ∧ (s.part p).cue.cues = [c] ∧ s.cueAddr p c k = some (r, idx, off) ∧ r.regionId = 0 ∧ r.kind ≠ 1 ∧ c.out = [k] ∧ k < c.blocks ∧ c.buffer = false ∧ r.maBase % 4096 = 0 ∧ c.addr % 4096 = 0 ∧ r.addr idx off / 4096 = blk ∧ s.nearFind blk = none ∧ s.ent? blk = none ∧ s.ras.recov = [] ∧ s.deepStopped blk (actCue p) 4096 = false ∧ s.deepTurn { line := 64 * blk, act := actCue p, rd := true } = true) :=
  ⟨⟨demoCue (fun h => { h with cues := [{ cue1 with group := 0, st := .fetching }] }), 1, 0, [], { cue1 with group := 0, st := .fetching }, rngH, 0, 0x3000, by decide +kernel, by decide +kernel, by decide +kernel, by decide +kernel, fun q h => .inr (onlyCue_of (by decide +kernel) q h), by decide +kernel⟩,
   ⟨demoCue (fun h => { h with cues := [{ cue1 with addr := 0x1000, out := [0] }] }), 1, 0, { cue1 with addr := 0x1000, out := [0] }, rngH, 0, 0x1000, by decide +kernel⟩,
   ⟨demoCue (fun h => { h with cues := [{ cue1 with out := [0] }] }), 1, 0, 3, { cue1 with out := [0] }, rngH, 0, 0x3000, by decide +kernel⟩⟩

theorem witness_ReceiveChecks :
    (∃ (s : State) (f : Frame), s.dataUp = true ∧ (s.cport f.port).up = true ∧ ColdonIdle s ∧ 9216 < f.frameLen) ∧
    (∃ (s : State) (f : Frame) (k : _), s.dataUp = true ∧ (s.cport f.port).up = true ∧ ColdonIdle s ∧ s.pb.cldPorts.find? (fun x => x.port == f.port) = some k ∧ f.frameLen ≤ 9216 ∧ (f.fcsOk = false ∨ (∃ v, f.vlan = some v ∧ v ≠ k.vlan))) ∧
    (∃ (s : State) (f : Frame) (k : _), s.dataUp = true ∧ (s.cport f.port).up = true ∧ ColdonIdle s ∧ s.pb.cldPorts.find? (fun x => x.port == f.port) = some k ∧ f.frameLen ≤ 9216 ∧ f.fcsOk = true ∧ (∀ v, f.vlan = some v → v = k.vlan) ∧ (f.udp = false ∨ f.dstIp ≠ k.ip ∨ f.udpPort ≠ s.pb.udpPort ∨ f.sumOk = false)) ∧
    (∃ (s : State) (f : Frame) (k : _), s.dataUp = true ∧ (s.cport f.port).up = true ∧ ColdonIdle s ∧ s.pb.cldPorts.find? (fun x => x.port == f.port) = some k ∧ f.frameLen ≤ 9216 ∧ f.fcsOk = true ∧ (∀ v, f.vlan = some v → v = k.vlan) ∧ f.udp = true ∧ f.dstIp = k.ip ∧ f.udpPort = s.pb.udpPort ∧ f.sumOk = true ∧ (f.headOk = false ∨ f.dst ≠ s.pb.moduleId)) ∧
    (∃ (s : State) (f : Frame) (k : _), s.dataUp = true ∧ (s.cport f.port).up = true ∧ ColdonIdle s ∧ s.pb.cldPorts.find? (fun x => x.port == f.port) = some k ∧ f.frameLen ≤ 9216 ∧ f.fcsOk = true ∧ (∀ v, f.vlan = some v → v = k.vlan) ∧ f.udp = true ∧ f.dstIp = k.ip ∧ f.udpPort = s.pb.udpPort ∧ f.sumOk = true ∧ f.headOk = true ∧ f.dst = s.pb.moduleId ∧ f.typ ≠ 1 ∧ f.typ ≠ 2 ∧ f.typ ≠ 3 ∧ f.typ ≠ 8 ∧ f.enc = false) ∧
    (∃ (s : State) (f : Frame) (k : _), s.dataUp = true ∧ (s.cport f.port).up = true ∧ ColdonIdle s ∧ s.pb.cldPorts.find? (fun x => x.port == f.port) = some k ∧ f.frameLen ≤ 9216 ∧ f.fcsOk = true ∧ (∀ v, f.vlan = some v → v = k.vlan) ∧ f.udp = true ∧ f.dstIp = k.ip ∧ f.udpPort = s.pb.udpPort ∧ f.sumOk = true ∧ f.headOk = true ∧ f.dst = s.pb.moduleId ∧ f.typ ≠ 1 ∧ f.typ ≠ 2 ∧ f.typ ≠ 3 ∧ f.typ ≠ 8 ∧ f.enc = true ∧ (∀ x ∈ s.cld.sessions, x.lsid = f.session → x.peer ≠ f.src) ∧ tabFind s.cld.nakAt f.srcIp = none ∧ (s.cport f.port).paused = false) ∧
    (∃ (s : State) (f : Frame) (c : Nat) (k : _) (x : _), s.dataUp = true ∧ (s.cport f.port).up = true ∧ ColdonIdle s ∧ s.pb.cldPorts.find? (fun x => x.port == f.port) = some k ∧ f.frameLen ≤ 9216 ∧ f.fcsOk = true ∧ (∀ v, f.vlan = some v → v = k.vlan) ∧ f.udp = true ∧ f.dstIp = k.ip ∧ f.udpPort = s.pb.udpPort ∧ f.sumOk = true ∧ f.headOk = true ∧ f.dst = s.pb.moduleId ∧ f.typ ≠ 1 ∧ f.typ ≠ 2 ∧ f.typ ≠ 3 ∧ f.typ ≠ 8 ∧ f.enc = true ∧ s.cld.sessions.find? (fun x => x.lsid == f.session && x.peer == f.src) = some x ∧ f.tagOk x.rxKey (.ping c) = false) ∧
    (∃ (s : State) (f : Frame) (c : Nat) (k : _) (x : _), s.dataUp = true ∧ (s.cport f.port).up = true ∧ ColdonIdle s ∧ s.pb.cldPorts.find? (fun x => x.port == f.port) = some k ∧ f.frameLen ≤ 9216 ∧ f.fcsOk = true ∧ (∀ v, f.vlan = some v → v = k.vlan) ∧ f.udp = true ∧ f.dstIp = k.ip ∧ f.udpPort = s.pb.udpPort ∧ f.sumOk = true ∧ f.headOk = true ∧ f.dst = s.pb.moduleId ∧ f.typ ≠ 1 ∧ f.typ ≠ 2 ∧ f.typ ≠ 3 ∧ f.typ ≠ 8 ∧ f.enc = true ∧ s.cld.sessions.find? (fun x => x.lsid == f.session && x.peer == f.src) = some x ∧ f.tagOk x.rxKey (.ping c) = true ∧ setHas x.rxSeen f.txc = true) :=
  ⟨⟨demoPeer, { arriving (.ping 0) with frameLen := 9217 }, by decide +kernel, by decide +kernel, coldonIdle_of (by decide +kernel), by decide +kernel⟩,
   ⟨demoPeer, { arriving (.ping 0) with fcsOk := false }, { port := 0, ip := 7, gwMac := 8, vlan := 0, pcp := 0, dscp := 0, enable := true, pfcEn := true }, by decide +kernel, by decide +kernel, coldonIdle_of (by decide +kernel), by decide +kernel, by decide +kernel, .inl (by decide +kernel)⟩,
   ⟨demoPeer, { arriving (.ping 0) with udp := false }, { port := 0, ip := 7, gwMac := 8, vlan := 0, pcp := 0, dscp := 0, enable := true, pfcEn := true }, by decide +kernel, by decide +kernel, coldonIdle_of (by decide +kernel), by decide +kernel, by decide +kernel, by decide +kernel, (fun _ h => nomatch h), by decide +kernel⟩,
   ⟨demoPeer, { arriving (.ping 0) with dst := 3 }, { port := 0, ip := 7, gwMac := 8, vlan := 0, pcp := 0, dscp := 0, enable := true, pfcEn := true }, by decide +kernel, by decide +kernel, coldonIdle_of (by decide +kernel), by decide +kernel, by decide +kernel, by decide +kernel, (fun _ h => nomatch h), by decide +kernel⟩,
   ⟨demoPeer, frameOf (.ping 0) false false, { port := 0, ip := 7, gwMac := 8, vlan := 0, pcp := 0, dscp := 0, enable := true, pfcEn := true }, by decide +kernel, by decide +kernel, coldonIdle_of (by decide +kernel), by decide +kernel, by decide +kernel, by decide +kernel, (fun _ h => nomatch h), by decide +kernel⟩,
   ⟨{ demo with cld := { ports := [(0, { up := true })] } }, arriving (.ping 0), { port := 0, ip := 7, gwMac := 8, vlan := 0, pcp := 0, dscp := 0, enable := true, pfcEn := true }, by decide +kernel, by decide +kernel, coldonIdle_of (by decide +kernel), by decide +kernel, by decide +kernel, by decide +kernel, (fun _ h => nomatch h), by decide +kernel⟩,
   ⟨demoPeer, { arriving (.ping 0) with tag := [] }, 0, { port := 0, ip := 7, gwMac := 8, vlan := 0, pcp := 0, dscp := 0, enable := true, pfcEn := true }, sess2, by decide +kernel, by decide +kernel, coldonIdle_of (by decide +kernel), by decide +kernel, by decide +kernel, by decide +kernel, (fun _ h => nomatch h), by decide +kernel⟩,
   ⟨demoSess (fun x => { x with rxSeen := [0] }), arriving (.ping 0), 0, { port := 0, ip := 7, gwMac := 8, vlan := 0, pcp := 0, dscp := 0, enable := true, pfcEn := true }, { sess2 with rxSeen := [0] }, by decide +kernel, by decide +kernel, coldonIdle_of (by decide +kernel), by decide +kernel, by decide +kernel, by decide +kernel, (fun _ h => nomatch h), by decide +kernel, by decide +kernel, by decide +kernel, by decide +kernel, by decide +kernel, by decide +kernel, by decide +kernel, by decide +kernel, by decide +kernel, by decide +kernel, by decide +kernel, by decide +kernel, stamped_tagOk rfl, by decide +kernel⟩⟩

theorem witness_SessionsOpen :
    (∃ (s r : State) (f : Frame) (b : HelloBody), s.dataUp = true ∧ (s.cport f.port).up = true ∧ s.receive f (.hello b) = { s := r, msgs := [.hello b] } ∧ HostIdle r ∧ r.idTaken b = false ∧ b.moduleId < r.pb.moduleId ∧ r.helloOk b b.head = true ∧ (r.cport f.port).paused = false) ∧
    (∃ (s r : State) (f : Frame) (b : HelloBody), s.dataUp = true ∧ (s.cport f.port).up = true ∧ s.receive f (.hello b) = { s := r, msgs := [.hello b] } ∧ HostIdle r ∧ r.idTaken b = false ∧ r.helloOk b b.head = false) ∧
    (∃ (s r : State) (f : Frame) (b : HelloBody), s.dataUp = true ∧ (s.cport f.port).up = true ∧ s.receive f (.hello b) = { s := r, msgs := [.hello b] } ∧ HostIdle r ∧ b.moduleId = r.pb.moduleId) ∧
    (∃ (s r : State) (f : Frame) (b mine : HelloBody) (h : HalfOpen), s.dataUp = true ∧ (s.cport f.port).up = true ∧ s.receive f (.helloRsp b) = { s := r, msgs := [.helloRsp b] } ∧ HostIdle r ∧ r.cld.half = [h] ∧ h.peer = b.moduleId ∧ h.responder = false ∧ h.hello = some mine ∧ b.moduleId ≠ r.pb.moduleId ∧ r.sess? b.moduleId = none ∧ r.helloOk b (mine.bytes ++ b.head) = true ∧ r.cav.remote = [] ∧ r.cld.resetPeers.contains b.moduleId = false ∧ (r.cport ((r.sendPort).getD h.port)).paused = false ∧ (∀ g ∈ r.pb.regions, r.isHome g = false ∧ (r.region g.rid).lostMembers.contains b.moduleId = false ∧ (r.region g.rid).unitsStale = false ∧ (r.region g.rid).cutOff = false)) ∧
    (∃ (s r : State) (f : Frame) (b mine : HelloBody) (h : HalfOpen), s.dataUp = true ∧ (s.cport f.port).up = true ∧ s.receive f (.helloRsp b) = { s := r, msgs := [.helloRsp b] } ∧ HostIdle r ∧ r.cld.half = [h] ∧ h.peer = b.moduleId ∧ h.responder = false ∧ h.hello = some mine ∧ b.moduleId ≠ r.pb.moduleId ∧ r.sess? b.moduleId = none ∧ r.helloOk b (mine.bytes ++ b.head) = false) ∧
    (∃ (s r : State) (f : Frame) (h : HalfOpen), s.dataUp = true ∧ (s.cport f.port).up = true ∧ s.receive f .finish = { s := r, msgs := [.finish] } ∧ HostIdle r ∧ s.cld.half = [h] ∧ r.cld.half = [h] ∧ h.peer = f.src ∧ h.responder = true ∧ h.lsid = f.session ∧ r.cav.remote = [] ∧ r.sess? f.src = none ∧ r.cld.resetPeers.contains f.src = false ∧ (∀ g ∈ r.pb.regions, r.isHome g = false ∧ (r.region g.rid).lostMembers.contains f.src = false ∧ (r.region g.rid).unitsStale = false ∧ (r.region g.rid).cutOff = false)) ∧
    (∃ (s r : State) (f : Frame) (sid m reason : Nat) (x : Sess), s.dataUp = true ∧ (s.cport f.port).up = true ∧ s.receive f (.nak sid m reason) = { s := r, msgs := [.nak sid m reason] } ∧ HostIdle r ∧ r.cld.sessions = [x] ∧ x.psid = sid ∧ x.peer = m ∧ (r.cport x.port).paused = false) ∧
    (∃ (s : State) (h : HalfOpen) (b : HelloBody) (p : Nat), s.dataUp = true ∧ s.cld.half = [h] ∧ h.hello = some b ∧ s.sendPort = some p ∧ (s.cport p).paused = false ∧ h.since + peerNs (1000 * s.pb.helloRetryUs) ≤ s.peerClock h.port) ∧
    (∃ (s : State) (peer p : Nat), s.dataUp = true ∧ s.cld.half = [] ∧ (s.pb.peer? peer).isSome = true ∧ s.pb.moduleId < peer ∧ s.sess? peer = none ∧ s.sendPort = some p ∧ (s.cport p).paused = false) ∧
    (∃ (s : State) (h : HalfOpen), s.dataUp = true ∧ s.cld.half = [h] ∧ h.hello = none ∧ h.since + peerNs (1000 * s.pb.helloRetryUs) ≤ s.peerClock h.port) :=
  ⟨⟨demoId 3, taken (demoId 3), plainTo 3 (.hello (helloOf [])), helloOf [], by decide +kernel, by decide +kernel, receive_of_plain (by decide +kernel) (by decide +kernel) (by decide +kernel) (by decide +kernel) (by decide +kernel) (by decide +kernel) (by decide +kernel), by unfold HostIdle; decide +kernel⟩,
   ⟨demoHalf [], taken (demoHalf []), plainTo 1 (.hello (hello0 2)), hello0 2, by decide +kernel, by decide +kernel, receive_of_plain (by decide +kernel) (by decide +kernel) (by decide +kernel) (by decide +kernel) (by decide +kernel) (by decide +kernel) (by decide +kernel), by unfold HostIdle; decide +kernel⟩,
   ⟨demoPeer, taken (demoPeer), plainTo 1 (.hello (hello0 1)), hello0 1, by decide +kernel, by decide +kernel, receive_of_plain (by decide +kernel) (by decide +kernel) (by decide +kernel) (by decide +kernel) (by decide +kernel) (by decide +kernel) (by decide +kernel), by unfold HostIdle; decide +kernel⟩,
   ⟨{ demoId 1 with cld := { demoPeer.cld with sessions := [], half := [half0] } }, taken ({ demoId 1 with cld := { demoPeer.cld with sessions := [], half := [half0] } }), plainTo 1 (.helloRsp (helloOf (hello0 1).bytes)), helloOf (hello0 1).bytes, hello0 1, half0, by decide +kernel, by decide +kernel, receive_of_plain (by decide +kernel) (by decide +kernel) (by decide +kernel) (by decide +kernel) (by decide +kernel) (by decide +kernel) (by decide +kernel), by unfold HostIdle; decide +kernel⟩,
   ⟨demoHalf [half0], taken (demoHalf [half0]), plainTo 1 (.helloRsp (hello0 2)), hello0 2, hello0 1, half0, by decide +kernel, by decide +kernel, receive_of_plain (by decide +kernel) (by decide +kernel) (by decide +kernel) (by decide +kernel) (by decide +kernel) (by decide +kernel) (by decide +kernel), by unfold HostIdle; decide +kernel⟩,
   ⟨demoRegions (demoHalf [half2]) [regAway], taken (demoRegions (demoHalf [half2]) [regAway]), arriving .finish, half2, by decide +kernel, by decide +kernel, receive_of_half (h := half2) (by decide +kernel) (by decide +kernel) (by decide +kernel) rfl rfl (by decide +kernel) (stamped_tagOk rfl) (by decide +kernel) rfl, by unfold HostIdle; decide +kernel⟩,
   ⟨demoPeer, taken (demoPeer), plainTo 1 (.nak 12 2 1), 12, 2, 1, sess2, by decide +kernel, by decide +kernel, receive_of_plain (by decide +kernel) (by decide +kernel) (by decide +kernel) (by decide +kernel) (by decide +kernel) (by decide +kernel) (by decide +kernel), by unfold HostIdle; decide +kernel⟩,
   ⟨demoHalf [half0], half0, hello0 1, 0, by decide +kernel⟩,
   ⟨demoHalf [], 2, 0, by decide +kernel⟩,
   ⟨demoHalf [half2], half2, by decide +kernel⟩⟩

theorem witness_SessionMessages :
    (∃ (s r : State) (f : Frame) (x : Sess) (blocks : _) (y : _), Arrives s f (.ack blocks) r x ∧ s.cld.sessions = [y] ∧ y.peer = f.src ∧ y.sendq = [] ∧ f.ackv = true ∧ f.ack = (y.peerAck + 1) % 2 ^ 32 ∧ y.peerAck < y.sndNxt) ∧
    (∃ (s r : State) (f : Frame) (x : Sess) (c : _), Arrives s f (.ping c) r x ∧ (r.cport x.port).paused = false) ∧
    (∃ (s r : State) (f : Frame) (x : Sess) (c : _), Arrives s f (.pong c) r x) ∧
    (∃ (s r : State) (f : Frame) (x : Sess) (reason : _), Arrives s f (.close reason) r x ∧ r.cav.remote = [] ∧ r.cav.redns = [] ∧ OwnSlots r) :=
  ⟨⟨demoPeer, after demoPeer (.ack []) true, arriving (.ack []) true, sessAfter demoPeer (.ack []) true, [], sess2, arrives_of rfl rfl (by decide +kernel) (by decide +kernel) (by decide +kernel) (by decide +kernel), by decide +kernel⟩,
   ⟨demoPeer, after (demoPeer) (.ping 7), arriving (.ping 7), sessAfter (demoPeer) (.ping 7), 7, arrives_of rfl rfl (by decide +kernel) (by decide +kernel) (by decide +kernel) (by decide +kernel), by decide +kernel⟩,
   ⟨demoPeer, after (demoPeer) (.pong 7), arriving (.pong 7), sessAfter (demoPeer) (.pong 7), 7, arrives_of rfl rfl (by decide +kernel) (by decide +kernel) (by decide +kernel) (by decide +kernel)⟩,
   ⟨demoPeer, after (demoPeer) (.close 3), arriving (.close 3), sessAfter (demoPeer) (.close 3), 3, arrives_of rfl rfl (by decide +kernel) (by decide +kernel) (by decide +kernel) (by decide +kernel), by unfold OwnSlots; decide +kernel⟩⟩

theorem witness_SessionTimers :
    (∃ (s : State) (x : Sess) (o : _), s.cld.sessions = [x] ∧ (s.cport x.port).paused = false ∧ x.outst = [o] ∧ o.sacked = false ∧ o.sentAt + peerNs o.rtoNs ≤ s.peerClock x.port) ∧
    (∃ (s : State) (x : Sess) (t0 : _), s.cld.sessions = [x] ∧ (s.cport x.port).paused = false ∧ x.ackSince = some t0 ∧ t0 + peerNs s.pb.ackDelayNs ≤ s.peerClock x.port) ∧
    (∃ (s : State) (x : Sess), s.cld.sessions = [x] ∧ (s.cport x.port).paused = false ∧ x.lastRx + peerNs (1000 * s.pb.idlePingUs) ≤ s.peerClock x.port ∧ x.lastPing + peerNs (1000 * s.pb.idlePingUs) ≤ s.peerClock x.port) ∧
    (∃ (s : State) (x : Sess), s.cld.sessions = [x] ∧ (s.cport x.port).paused = false ∧ x.lastRx + peerNs (1000 * s.pb.livenessUs) ≤ s.peerClock x.port ∧ s.cav.remote = [] ∧ s.cav.redns = [] ∧ OwnSlots s ∧ (∀ g ∈ s.pb.regions, g.members.contains x.peer = false ∧ s.isHome g = false) ∧ HostIdle s) :=
  ⟨⟨demoSess (fun x => { x with outst := [outMsg] }), { sess2 with outst := [outMsg] }, outMsg, by decide +kernel⟩,
   ⟨demoSess (fun x => { x with ackSince := some 0 }), { sess2 with ackSince := some 0 }, 0, by decide +kernel⟩,
   ⟨demoPeer, sess2, by decide +kernel⟩,
   ⟨demoRegions demoPeer [{ regAway with members := [1, 9] }], sess2, by unfold HostIdle OwnSlots; decide +kernel⟩⟩

theorem witness_HolderServes :
    (∃ (s r : State) (f : Frame) (x : Sess) (g : PbRegion) (ca rid tag dg : Nat) (lines : _) (pre : _) (v : _), Arrives s f (.read ca rid tag dg lines pre false) r x ∧ ServesPlain r rid dg ca lines g ∧ r.shareStopped (r.shareBase + ca % 2 ^ 44) lines actColdon = false ∧ r.holderRead (r.shareBase + ca % 2 ^ 44) lines = .ok v) ∧
    (∃ (s r : State) (f : Frame) (x : Sess) (g : PbRegion) (ca rid tag dg : Nat) (p : _) (d : _), Arrives s f (.write ca rid tag dg 1 p d) r x ∧ ServesPlain r rid dg ca 1 g ∧ g.n = 0 ∧ (r.shareBase + ca % 2 ^ 44) % 64 = 0 ∧ (r.nearFind ((r.shareBase + ca % 2 ^ 44) / 4096)).isSome = true) ∧
    (∃ (s r : State) (f : Frame) (x : Sess) (g : PbRegion) (ca rid tag dg : Nat) (af : _) (tf : _) (p : _) (d : _), Arrives s f (.add ca rid tag dg 1 af tf p d) r x ∧ ServesPlain r rid dg ca 1 g ∧ g.n = 0 ∧ (r.shareBase + ca % 2 ^ 44) % 64 = 0 ∧ r.nearFind ((r.shareBase + ca % 2 ^ 44) / 4096) = none) ∧
    (∃ (s r : State) (f : Frame) (x : Sess) (g : PbRegion) (ca rid tag dg : Nat) (p : _) (d : _), Arrives s f (.delta ca rid tag dg 1 p d) r x ∧ ServesPlain r rid dg ca 1 g ∧ (r.shareBase + ca % 2 ^ 44) % 64 = 0 ∧ (r.nearFind ((r.shareBase + ca % 2 ^ 44) / 4096)).isSome = true) :=
  ⟨⟨demoPeer, after (demoPeer) (.read (2 ^ 44 + 0x1FFFC0) 5 6 9 1 false false), arriving (.read (2 ^ 44 + 0x1FFFC0) 5 6 9 1 false false), sessAfter (demoPeer) (.read (2 ^ 44 + 0x1FFFC0) 5 6 9 1 false false), reg5, 2 ^ 44 + 0x1FFFC0, 5, 6, 9, 1, false, ((List.replicate 64 0), 0), arrives_of rfl rfl (by decide +kernel) (by decide +kernel) (by decide +kernel) (by decide +kernel), by unfold ServesPlain; decide +kernel⟩,
   ⟨{ demoPeer with mem := { tags := [near 0x780001FF] } }, after ({ demoPeer with mem := { tags := [near 0x780001FF] } }) (.write (2 ^ 44 + 0x1FFFC0) 5 6 9 1 0 (List.replicate 64 0)), arriving (.write (2 ^ 44 + 0x1FFFC0) 5 6 9 1 0 (List.replicate 64 0)), sessAfter ({ demoPeer with mem := { tags := [near 0x780001FF] } }) (.write (2 ^ 44 + 0x1FFFC0) 5 6 9 1 0 (List.replicate 64 0)), reg5, 2 ^ 44 + 0x1FFFC0, 5, 6, 9, 0, (List.replicate 64 0), arrives_of rfl rfl (by decide +kernel) (by decide +kernel) (by decide +kernel) (by decide +kernel), by unfold ServesPlain; decide +kernel⟩,
   ⟨demoPeer, after (demoPeer) (.add (2 ^ 44 + 0x1FFFC0) 5 6 9 1 false false 0 (List.replicate 64 0)), arriving (.add (2 ^ 44 + 0x1FFFC0) 5 6 9 1 false false 0 (List.replicate 64 0)), sessAfter (demoPeer) (.add (2 ^ 44 + 0x1FFFC0) 5 6 9 1 false false 0 (List.replicate 64 0)), reg5, 2 ^ 44 + 0x1FFFC0, 5, 6, 9, false, false, 0, (List.replicate 64 0), arrives_of rfl rfl (by decide +kernel) (by decide +kernel) (by decide +kernel) (by decide +kernel), by unfold ServesPlain; decide +kernel⟩,
   ⟨{ demoPeer with mem := { tags := [near 0x780001FF] } }, after ({ demoPeer with mem := { tags := [near 0x780001FF] } }) (.delta (2 ^ 44 + 0x1FFFC0) 5 6 9 1 0 (List.replicate 64 0)), arriving (.delta (2 ^ 44 + 0x1FFFC0) 5 6 9 1 0 (List.replicate 64 0)), sessAfter ({ demoPeer with mem := { tags := [near 0x780001FF] } }) (.delta (2 ^ 44 + 0x1FFFC0) 5 6 9 1 0 (List.replicate 64 0)), reg5, 2 ^ 44 + 0x1FFFC0, 5, 6, 9, 0, (List.replicate 64 0), arrives_of rfl rfl (by decide +kernel) (by decide +kernel) (by decide +kernel) (by decide +kernel), by unfold ServesPlain; decide +kernel⟩⟩

theorem witness_AnswersArrive :
    (∃ (s r : State) (f : Frame) (x : Sess) (tag : Nat) (a : CvnAcc) (o : Op) (st : _) (p : _) (e : _) (d : _) (line : _), Arrives s f (.readRsp tag st p e d) r x ∧ Awaits r f.src tag a o ∧ a.who = .opRd o.id line ∧ a.what = .rd 1 false false) ∧
    (∃ (s r : State) (f : Frame) (x : Sess) (tag : Nat) (a : CvnAcc) (o : Op) (st : _), Arrives s f (.writeAck tag st) r x ∧ Awaits r f.src tag a o ∧ a.who = .opWr o.id ∧ (∃ d p, a.what = .wr d p)) ∧
    (∃ (s r : State) (f : Frame) (x : Sess) (tag : Nat) (a : CvnAcc) (o : Op) (st : _) (k : _) (e : _) (v : _), Arrives s f (.regionRsp tag st k e v) r x ∧ Awaits r f.src tag a o ∧ a.who = .op o.id ∧ a.what = .msg ∧ e = (r.region a.rid).epoch ∧ st ≠ 3) ∧
    (∃ (s r : State) (f : Frame) (x : Sess) (tag : Nat) (a : CvnAcc) (o : Op) (k : _) (gen : _) (fmt : _) (lens : _) (n : _), Arrives s f (.tableRsp tag 0 k gen fmt lens) r x ∧ Awaits r f.src tag a o ∧ a.who = .table n ∧ a.what = .msg) :=
  ⟨⟨awaiting (.opRd 4 64) (.rd 1 false false), after (awaiting (.opRd 4 64) (.rd 1 false false)) (.readRsp 6 0 0 0 (List.replicate 64 0)), arriving (.readRsp 6 0 0 0 (List.replicate 64 0)), sessAfter (awaiting (.opRd 4 64) (.rd 1 false false)) (.readRsp 6 0 0 0 (List.replicate 64 0)), 6, acc3 (.opRd 4 64) (.rd 1 false false), opOf 0 [], 0, 0, 0, (List.replicate 64 0), 64, arrives_of rfl rfl (by decide +kernel) (by decide +kernel) (by decide +kernel) (by decide +kernel), awaits_of rem6 (by decide +kernel) (by decide +kernel), by decide +kernel⟩,
   ⟨awaiting (.opWr 4) (.wr [] false), after (awaiting (.opWr 4) (.wr [] false)) (.writeAck 6 10), arriving (.writeAck 6 10), sessAfter (awaiting (.opWr 4) (.wr [] false)) (.writeAck 6 10), 6, acc3 (.opWr 4) (.wr [] false), opOf 0 [], 10, arrives_of rfl rfl (by decide +kernel) (by decide +kernel) (by decide +kernel) (by decide +kernel), awaits_of rem6 (by decide +kernel) (by decide +kernel), by decide +kernel, ⟨_, _, rfl⟩⟩,
   ⟨awaiting (.op 4) .msg, after (awaiting (.op 4) .msg) (.regionRsp 6 0 1 0 8), arriving (.regionRsp 6 0 1 0 8), sessAfter (awaiting (.op 4) .msg) (.regionRsp 6 0 1 0 8), 6, acc3 (.op 4) .msg, opOf 0 [], 0, 1, 0, 8, arrives_of rfl rfl (by decide +kernel) (by decide +kernel) (by decide +kernel) (by decide +kernel), awaits_of rem6 (by decide +kernel) (by decide +kernel), by decide +kernel⟩,
   ⟨awaiting (.table 0) .msg, after (awaiting (.table 0) .msg) (.tableRsp 6 0 0 1 0 (List.replicate 256 8)), arriving (.tableRsp 6 0 0 1 0 (List.replicate 256 8)), sessAfter (awaiting (.table 0) .msg) (.tableRsp 6 0 0 1 0 (List.replicate 256 8)), 6, acc3 (.table 0) .msg, opOf 0 [], 0, 1, 0, List.replicate 256 8, 0, arrives_of rfl rfl (by decide +kernel) (by decide +kernel) (by decide +kernel) (by decide +kernel), awaits_of rem6 (by decide +kernel) (by decide +kernel), by decide +kernel⟩⟩

theorem witness_HomeServes :
    (∃ (s r : State) (f : Frame) (x : Sess) (g : PbRegion) (rid tag dg part : Nat) (k : _), Arrives s f (.reserve rid tag dg ((r.region rid).current g.nslots).2 part) r x ∧ HomeAlone r rid dg g ∧ (r.region rid).sealedCur = false ∧ (r.region rid).find g.nslots (fun v => v.st == .free) = some k ∧ k ≠ ((r.region rid).current g.nslots).1) ∧
    (∃ (s r : State) (f : Frame) (x : Sess) (g : PbRegion) (rid tag dg part : Nat) (k : _) (c : _) (base : _), Arrives s f (.commit rid tag dg base part k) r x ∧ HomeAlone r rid dg g ∧ (r.region rid).current g.nslots = c ∧ ((r.region rid).vs c.1).st = .current ∧ ((r.region rid).vs k).writtenBy f.src part = true ∧ base = c.2) ∧
    (∃ (s r : State) (f : Frame) (x : Sess) (g : PbRegion) (rid tag dg part : Nat) (k : _), Arrives s f (.abandon rid tag dg part k) r x ∧ HomeAlone r rid dg g ∧ ((r.region rid).vs k).writtenBy f.src part = true) ∧
    (∃ (s r : State) (f : Frame) (x : Sess) (g : PbRegion) (rid tag dg part : Nat) (v : _) (k : _), Arrives s f (.acquire rid tag dg v part) r x ∧ HomeAlone r rid dg g ∧ (if v = 0 then some ((r.region rid).current g.nslots).1 else (r.region rid).slotOf g.nslots v) = some k) ∧
    (∃ (s r : State) (f : Frame) (x : Sess) (g : PbRegion) (rid tag dg part : Nat) (k : _), Arrives s f (.release rid tag dg part) r x ∧ HomeAlone r rid dg g ∧ (List.range g.nslots).find? (fun j => ((r.region rid).vs j).pins.contains (f.src, part)) = some k) :=
  ⟨⟨homeAlone id, after (homeAlone id) (.reserve 5 6 9 7 4), arriving (.reserve 5 6 9 7 4), sessAfter (homeAlone id) (.reserve 5 6 9 7 4), regAlone, 5, 6, 9, 4, 1, arrives_of rfl rfl (by decide +kernel) (by decide +kernel) (by decide +kernel) (by decide +kernel), by unfold HomeAlone; decide +kernel⟩,
   ⟨homeAlone reserved, after (homeAlone reserved) (.commit 5 6 9 7 4 1), arriving (.commit 5 6 9 7 4 1), sessAfter (homeAlone reserved) (.commit 5 6 9 7 4 1), regAlone, 5, 6, 9, 4, 1, (0, 7), 7, arrives_of rfl rfl (by decide +kernel) (by decide +kernel) (by decide +kernel) (by decide +kernel), by unfold HomeAlone; decide +kernel⟩,
   ⟨homeAlone reserved, after (homeAlone reserved) (.abandon 5 6 9 4 1), arriving (.abandon 5 6 9 4 1), sessAfter (homeAlone reserved) (.abandon 5 6 9 4 1), regAlone, 5, 6, 9, 4, 1, arrives_of rfl rfl (by decide +kernel) (by decide +kernel) (by decide +kernel) (by decide +kernel), by unfold HomeAlone; decide +kernel⟩,
   ⟨homeAlone id, after (homeAlone id) (.acquire 5 6 9 7 4), arriving (.acquire 5 6 9 7 4), sessAfter (homeAlone id) (.acquire 5 6 9 7 4), regAlone, 5, 6, 9, 4, 7, 0, arrives_of rfl rfl (by decide +kernel) (by decide +kernel) (by decide +kernel) (by decide +kernel), by unfold HomeAlone; decide +kernel⟩,
   ⟨homeAlone id, after (homeAlone id) (.release 5 6 9 4), arriving (.release 5 6 9 4), sessAfter (homeAlone id) (.release 5 6 9 4), regAlone, 5, 6, 9, 4, 0, arrives_of rfl rfl (by decide +kernel) (by decide +kernel) (by decide +kernel) (by decide +kernel), by unfold HomeAlone; decide +kernel⟩⟩

theorem witness_MembersFollow :
    (∃ (s r : State) (f : Frame) (x : Sess) (g : PbRegion) (rid tag dg : Nat) (b : _) (n : _) (o : _) (l : _), Arrives s f (.fill rid tag dg b n o l) r x ∧ r.pb.region? rid = some g ∧ g.digest = dg ∧ r.mem.tags = [] ∧ r.mem.merge = [] ∧ Memory.wf r.mem.deep = true) ∧
    (∃ (s r : State) (f : Frame) (x : Sess) (g : PbRegion) (rid tag : Nat) (e : _) (ch : _) (k : _) (m : _) (part : _) (st : _) (v : _), Arrives s f (.mirror rid tag e ch k m part st v) r x ∧ r.pb.region? rid = some g ∧ g.altHome = r.pb.moduleId ∧ (r.region rid).epoch ≤ e) ∧
    (∃ (s r : State) (f : Frame) (x : Sess) (rid : Nat) (e : _) (h : _), Arrives s f (.promote rid e h) r x ∧ (r.region rid).epoch < e) ∧
    (∃ (s r : State) (f : Frame) (x : Sess) (g : PbRegion) (rid tag dg : Nat) (k : _) (gen : _), Arrives s f (.tableFetch rid tag dg k gen) r x ∧ r.pb.region? rid = some g ∧ g.digest = dg ∧ r.isHome g = true ∧ (r.slot k).imp = false ∧ ((r.slot k).st = 2 ∨ (r.slot k).st = 3) ∧ (r.slot k).gen = gen) ∧
    (∃ (s r : State) (f : Frame) (x : Sess) (k : _) (gen : _), Arrives s f (.tableRelease k gen) r x ∧ (r.slot k).gen = gen) ∧
    (∃ (s r : State) (f : Frame) (x : Sess) (k : _) (gen : _) (n : _) (gs : _), Arrives s f (.tableDrop k gen) r x ∧ r.gol.slots = [(n, gs)] ∧ gs.imp = true ∧ gs.home = f.src ∧ gs.homeSlot = k ∧ gs.homeGen = gen ∧ gs.st = 2) :=
  ⟨⟨{ demoPeer with mem := {} }, after ({ demoPeer with mem := {} }) (.fill 5 6 9 0 1 0 0x100000), arriving (.fill 5 6 9 0 1 0 0x100000), sessAfter ({ demoPeer with mem := {} }) (.fill 5 6 9 0 1 0 0x100000), reg5, 5, 6, 9, 0, 1, 0, 0x100000, arrives_of rfl rfl (by decide +kernel) (by decide +kernel) (by decide +kernel) (by decide +kernel), by decide +kernel⟩,
   ⟨demoRegions demoPeer [{ reg5 with home := 2, altHome := 1 }], after (demoRegions demoPeer [{ reg5 with home := 2, altHome := 1 }]) (.mirror 5 6 0 1 1 2 4 1 0), arriving (.mirror 5 6 0 1 1 2 4 1 0), sessAfter (demoRegions demoPeer [{ reg5 with home := 2, altHome := 1 }]) (.mirror 5 6 0 1 1 2 4 1 0), { reg5 with home := 2, altHome := 1 }, 5, 6, 0, 1, 1, 2, 4, 1, 0, arrives_of rfl rfl (by decide +kernel) (by decide +kernel) (by decide +kernel) (by decide +kernel), by decide +kernel⟩,
   ⟨demoPeer, after (demoPeer) (.promote 5 1 2), arriving (.promote 5 1 2), sessAfter (demoPeer) (.promote 5 1 2), 5, 1, 2, arrives_of rfl rfl (by decide +kernel) (by decide +kernel) (by decide +kernel) (by decide +kernel), by decide +kernel⟩,
   ⟨{ demoPeer with gol := { slots := [(0, { st := 2, gen := 1 })] } }, after ({ demoPeer with gol := { slots := [(0, { st := 2, gen := 1 })] } }) (.tableFetch 5 6 9 0 1), arriving (.tableFetch 5 6 9 0 1), sessAfter ({ demoPeer with gol := { slots := [(0, { st := 2, gen := 1 })] } }) (.tableFetch 5 6 9 0 1), reg5, 5, 6, 9, 0, 1, arrives_of rfl rfl (by decide +kernel) (by decide +kernel) (by decide +kernel) (by decide +kernel), by decide +kernel⟩,
   ⟨{ demoPeer with gol := { slots := [(0, { st := 2, gen := 1, importers := [2] })] } }, after ({ demoPeer with gol := { slots := [(0, { st := 2, gen := 1, importers := [2] })] } }) (.tableRelease 0 1), arriving (.tableRelease 0 1), sessAfter ({ demoPeer with gol := { slots := [(0, { st := 2, gen := 1, importers := [2] })] } }) (.tableRelease 0 1), 0, 1, arrives_of rfl rfl (by decide +kernel) (by decide +kernel) (by decide +kernel) (by decide +kernel), by decide +kernel⟩,
   ⟨{ demoPeer with gol := { slots := [(0, imported)] } }, after ({ demoPeer with gol := { slots := [(0, imported)] } }) (.tableDrop 4 6), arriving (.tableDrop 4 6), sessAfter ({ demoPeer with gol := { slots := [(0, imported)] } }) (.tableDrop 4 6), 4, 6, 0, imported, arrives_of rfl rfl (by decide +kernel) (by decide +kernel) (by decide +kernel) (by decide +kernel), by decide +kernel⟩⟩

theorem witness_ReductionMessages :
    (∃ (s r : State) (f : Frame) (x : Sess) (g : PbGroup) (grp q : Nat) (rank : _) (fl : _) (n : _), Arrives s f (.reduceJoin grp q rank fl n) r x ∧ r.pb.group? grp = some g ∧ g.members[rank]?.map (·.1) = some f.src ∧ r.cav.redns = []) ∧
    (∃ (s r : State) (f : Frame) (x : Sess) (g : PbGroup) (grp q : Nat) (rank : _) (fmt : _) (e : _) (p : _) (d : _) (k : _) (y : _) (o : _), Arrives s f (.reduceData grp rank fmt q e p d) r x ∧ r.pb.group? grp = some g ∧ g.members[rank]?.map (·.1) = some f.src ∧ r.cav.redns = [y] ∧ y.group = grp ∧ y.rseq = q ∧ y.op = some o.id ∧ y.got = [] ∧ y.sums = [] ∧ r.disp.ops = [o] ∧ r.rankIn g = some k ∧ segStart g.members.length (o.fieldAt 32 4) k ≤ e) ∧
    (∃ (s r : State) (f : Frame) (x : Sess) (g : PbGroup) (grp q : Nat) (rank : _) (fmt : _) (e : _) (p : _) (d : _) (y : _) (o : _), Arrives s f (.reduceSum grp rank fmt q e p d) r x ∧ r.pb.group? grp = some g ∧ r.cav.redns = [y] ∧ y.group = grp ∧ y.rseq = q ∧ y.op = some o.id ∧ r.disp.ops = [o]) ∧
    (∃ (s r : State) (f : Frame) (x : Sess) (grp q : Nat) (reason : _) (y : _) (o : _), Arrives s f (.reduceAbort grp reason q) r x ∧ r.cav.redns = [y] ∧ y.group = grp ∧ y.rseq = q ∧ y.op = some o.id ∧ r.disp.ops = [o] ∧ o.phase ≠ .ended ∧ reason ≠ 2) :=
  ⟨⟨demoPeer, after (demoPeer) (.reduceJoin 3 5 1 0 16), arriving (.reduceJoin 3 5 1 0 16), sessAfter (demoPeer) (.reduceJoin 3 5 1 0 16), grp3, 3, 5, 1, 0, 16, arrives_of rfl rfl (by decide +kernel) (by decide +kernel) (by decide +kernel) (by decide +kernel), by decide +kernel⟩,
   ⟨reducing, after (reducing) (.reduceData 3 1 0 5 0 0 (List.replicate 64 0)), arriving (.reduceData 3 1 0 5 0 0 (List.replicate 64 0)), sessAfter (reducing) (.reduceData 3 1 0 5 0 0 (List.replicate 64 0)), grp3, 3, 5, 1, 0, 0, 0, (List.replicate 64 0), 0, redn5, opReduce, arrives_of rfl rfl (by decide +kernel) (by decide +kernel) (by decide +kernel) (by decide +kernel), by decide +kernel⟩,
   ⟨reducing, after (reducing) (.reduceSum 3 1 0 5 8 0 (List.replicate 64 0)), arriving (.reduceSum 3 1 0 5 8 0 (List.replicate 64 0)), sessAfter (reducing) (.reduceSum 3 1 0 5 8 0 (List.replicate 64 0)), grp3, 3, 5, 1, 0, 8, 0, (List.replicate 64 0), redn5, opReduce, arrives_of rfl rfl (by decide +kernel) (by decide +kernel) (by decide +kernel) (by decide +kernel), by decide +kernel⟩,
   ⟨reducing, after (reducing) (.reduceAbort 3 1 5), arriving (.reduceAbort 3 1 5), sessAfter (reducing) (.reduceAbort 3 1 5), 3, 5, 1, redn5, opReduce, arrives_of rfl rfl (by decide +kernel) (by decide +kernel) (by decide +kernel) (by decide +kernel), by decide +kernel⟩⟩

theorem witness_RebuildAndSlotWait :
    (∃ (s : State) (rid i : Nat) (g : PbRegion) (cells : List (Nat × Nat)) (deg : Bool), s.pb.region? rid = some g ∧ s.memberIdx g = some i ∧ s.dataUp = true ∧ (s.region rid).rebuilding = true ∧ (s.region rid).rebuildLeft = [] ∧ setHas (s.region rid).rebuilt (s.region rid).rebuildRow = false ∧ (s.region rid).rebuildRow < g.nslots * (g.per / unitBytes) ∧ s.cav.accs = [] ∧ cells ≠ [] ∧ (∀ y ∈ s.pb.regions, (s.region y.rid).stalled = []) ∧ s.readRoute g ((s.region rid).rebuildRow / (g.per / unitBytes)) [s.pb.moduleId] (i, (s.region rid).rebuildRow % (g.per / unitBytes)) = some (cells, deg)) ∧
    (∃ (s : State) (rid : Nat) (g : PbRegion) (w : Resv), s.pb.region? rid = some g ∧ (s.region rid).waitq = [w] ∧ w.since + g.slotWait * 1400000 ≤ s.clk.hmesh ∧ w.module ≠ s.pb.moduleId ∧ (s.sess? w.module).isSome = true) ∧
    (∃ (s : State) (rid : Nat) (g : PbRegion) (w : Resv) (o : _), s.pb.region? rid = some g ∧ (s.region rid).waitq = [w] ∧ w.since + g.slotWait * 1400000 ≤ s.clk.hmesh ∧ w.module = s.pb.moduleId ∧ s.op? w.rtag = some o) :=
  ⟨⟨{ demoRegions demoPeer [regMirrored] with cav := { regions := [(5, { rebuilding := true, rebuildRow := 63 })] } }, 5, 0, regMirrored, [(1, 30)], true, by decide +kernel⟩,
   ⟨demoCav (fun c => { c with regions := [(5, { waitq := [{ module := 2, rtag := 6, part := 4, base := 7, since := 0 }] })] }), 5, reg5, { module := 2, rtag := 6, part := 4, base := 7, since := 0 }, by decide +kernel⟩,
   ⟨withOp (demoCav (fun c => { c with regions := [(5, { waitq := [{ module := 1, rtag := 4, part := 4, base := 7, since := 0 }] })] })) opPublish, 5, reg5, { module := 1, rtag := 4, part := 4, base := 7, since := 0 }, opPublish, by decide +kernel⟩⟩

theorem witness_ColdonPorts :
    (∃ (s : State) (p : Nat) (a : _), (s.cport p).up = true ∧ s.portIp p = some a ∧ ((s.cport p).answeredSec ≠ s.clk.mgmt / mgmtHz ∨ (s.cport p).answered < 1000)) ∧
    (∃ (s : State) (p : Nat) (a : _), (s.cport p).up = true ∧ s.portIp p = some a ∧ (s.cport p).answeredSec = s.clk.mgmt / mgmtHz ∧ 1000 ≤ (s.cport p).answered) ∧
    (∃ (s : State) (p : Nat) (c : _), s.pb.cldPorts.find? (fun x => x.port == p) = some c ∧ c.pfcEn = true ∧ (s.cport p).up = true) ∧
    (∃ (s : State) (p : Nat) (c : _), s.dataUp = true ∧ s.pb.cldPorts.find? (fun x => x.port == p) = some c ∧ c.enable = true ∧ (s.cport p).prsntHigh = false ∧ (s.cport p).up = false ∧ s.isFailed (.coldonPort p) = false) ∧
    (∃ (p : Nat), p < 4) :=
  ⟨⟨demoPeer.modCport 0 (fun x => { x with answered := 999, answeredSec := 1 }), 0, 7, by decide +kernel⟩,
   ⟨demoPeer.modCport 0 (fun x => { x with answered := 1000, answeredSec := 1 }), 0, 7, by decide +kernel⟩,
   ⟨demoPeer, 0, { port := 0, ip := 7, gwMac := 8, vlan := 0, pcp := 0, dscp := 0, enable := true, pfcEn := true }, by decide +kernel⟩,
   ⟨demoPeer.modCport 0 (fun x => { x with up := false }), 0, { port := 0, ip := 7, gwMac := 8, vlan := 0, pcp := 0, dscp := 0, enable := true, pfcEn := true }, by decide +kernel⟩,
   ⟨3, by decide +kernel⟩⟩

theorem witness_RowTrackers :
    (∃ (s : State) (c : Ctl) (bank row : Nat) (e : TrkEnt), (tabGet [] (s.ctl c).trackers bank).find? (fun x => x.row == row && decide ((s.ctl c).rdMit ≤ x.count)) = some e) ∧
    (∃ (s : State) (c : Ctl) (b : Nat), s.ctlOk c = true ∧ nextAt (s.ctl c).clearFrom 0 (16 * ctlMs c) = b ∧ b ≤ s.ctlClock c ∧ b % (32 * ctlMs c) = 0) ∧
    (∃ (s : State) (c : Ctl) (b : Nat), s.ctlOk c = true ∧ nextAt (s.ctl c).clearFrom 0 (16 * ctlMs c) = b ∧ b ≤ s.ctlClock c ∧ b % (32 * ctlMs c) ≠ 0) :=
  ⟨⟨{ demo with dram := { near := [(15, { trackers := [(63, [{ row := 9, count := 384, cand := 0, vote := 0 }])] })] } }, .near 15, 63, 9, { row := 9, count := 384, cand := 0, vote := 0 }, by decide +kernel⟩,
   ⟨atDeep 100000000 { clearFrom := 16 * 1800000 + 1 }, .deep 7, 32 * ctlMs (.deep 7), by decide +kernel⟩,
   ⟨atDeep 100000000 { clearFrom := 1 }, .deep 7, 16 * ctlMs (.deep 7), by decide +kernel⟩⟩

theorem witness_RefreshRules :
    (∃ (s : State) (c : Ctl) (k : Nat), s.ctlOk c = true ∧ s.kOk c k = true ∧ setHas (s.ctl c).running k = false ∧ setHas (s.ctl c).doubled k = false ∧ nextAt (tabGet 0 (s.ctl c).dueFrom k) (refreshAt c k false).1 (refreshAt c k false).2 ≤ s.ctlClock c ∧ tabGet 0 (s.ctl c).owed k < 3) ∧
    (∃ (s : State) (c : Ctl) (k : Nat), s.ctlOk c = true ∧ s.kOk c k = true ∧ setHas (s.ctl c).running k = false ∧ setHas (s.ctl c).doubled k = false ∧ nextAt (tabGet 0 (s.ctl c).dueFrom k) (refreshAt c k false).1 (refreshAt c k false).2 ≤ s.ctlClock c ∧ 3 ≤ tabGet 0 (s.ctl c).owed k) ∧
    (∃ (s : State) (c : Ctl) (k : Nat), s.ctlOk c = true ∧ s.kOk c k = true ∧ setHas (s.ctl c).running k = false ∧ setHas (s.ctl c).doubled k = true ∧ nextAt (tabGet 0 (s.ctl c).dueFrom k) (refreshAt c k true).1 (refreshAt c k true).2 ≤ s.ctlClock c) ∧
    (∃ (s : State) (c : Ctl) (k : Nat) (rt : _), s.ctlOk c = true ∧ s.kOk c k = true ∧ setHas (s.ctl c).running k = false ∧ tabGet 0 (s.ctl c).owed k ≠ 0 ∧ (s.refreshHeld c k rt = false ∨ setHas (s.ctl c).forced k = true)) ∧
    (∃ (s : State) (c : Ctl) (k : Nat), s.ctlOk c = true ∧ s.kOk c k = true ∧ setHas (s.ctl c).running k = true ∧ tabGet 0 (s.ctl c).runAt k + refreshCycles c ≤ s.ctlClock c) ∧
    (∃ (s : State) (c : Ctl) (k : Nat) (lr : _) (i : _) (d : _) (temp : _), s.ctlOk c = true ∧ s.kOk c k = true ∧ (i = 8 * k + lr ∧ lr < s.lrs ∧ (∃ p, c = .deep p) ∨ i = 8 * k ∧ ∃ n, c = .near n) ∧ (∀ t0, tabGet none (s.ctl c).mr4At i = some t0 → s.ctlClock c / (16 * (refreshAt c k (setHas (s.ctl c).doubled k)).2) ≠ t0 / (16 * (refreshAt c k (setHas (s.ctl c).doubled k)).2)) ∧ ((∃ p, c = .deep p ∧ d = true) ∨ (∃ n, c = .near n ∧ 1360 ≤ temp))) ∧
    (∃ (s : State) (c : Ctl) (k : Nat) (lr : _) (i : _) (d : _) (temp : _), s.ctlOk c = true ∧ s.kOk c k = true ∧ (i = 8 * k + lr ∧ lr < s.lrs ∧ (∃ p, c = .deep p) ∨ i = 8 * k ∧ ∃ n, c = .near n) ∧ (∀ t0, tabGet none (s.ctl c).mr4At i = some t0 → s.ctlClock c / (16 * (refreshAt c k (setHas (s.ctl c).doubled k)).2) ≠ t0 / (16 * (refreshAt c k (setHas (s.ctl c).doubled k)).2)) ∧ ((∃ p, c = .deep p ∧ d = false) ∨ (∃ n, c = .near n ∧ temp < 1360)) ∧ tabGet 0 (s.ctl c).normalReads i = 1 ∧ (∀ l, l < 8 → 8 * k + l ≠ i → tabGet 0 (s.ctl c).normalReads (8 * k + l) = 0)) :=
  ⟨⟨atDeep 100000000 { owed := [(7, 2)] }, .deep 7, 7, by decide +kernel⟩,
   ⟨atDeep 100000000 { owed := [(7, 3)] }, .deep 7, 7, by decide +kernel⟩,
   ⟨atDeep 100000000 { owed := [(7, 1)], doubled := [7] }, .deep 7, 7, by decide +kernel⟩,
   ⟨atDeep 100000000 { owed := [(7, 1)] }, .deep 7, 7, false, by decide +kernel⟩,
   ⟨atDeep 100000000 { running := [7] }, .deep 7, 7, by decide +kernel⟩,
   ⟨demoDeep {}, .deep 7, 7, 0, 56, true, 0, by decide +kernel, by decide +kernel, .inl ⟨by decide +kernel, by decide +kernel, _, rfl⟩, (fun _ h => nomatch h), .inl ⟨_, rfl, rfl⟩⟩,
   ⟨demoDeep { doubled := [7], normalReads := [(56, 1)] }, .deep 7, 7, 0, 56, false, 0, by decide +kernel, by decide +kernel, .inl ⟨by decide +kernel, by decide +kernel, _, rfl⟩, (fun _ h => nomatch h), .inl ⟨_, rfl, rfl⟩, by decide +kernel⟩⟩

theorem witness_RetrainAndFrequency :
    (∃ (s : State) (c : Ctl) (k : Nat) (periodic : Bool) (temp : Int), s.ctlOk c = true ∧ (periodic = true ∧ nextAt (tabGet 1 (s.ctl c).roundFrom k) 0 (2 ^ (s.ctl c).retrainLog2 * ctlMs c) ≤ s.ctlClock c ∨ 128 ≤ (temp - tabGet (0 : Int) (s.ctl c).lastTemp k).natAbs)) ∧
    (∃ (s : State) (c : Ctl) (k : Nat) (ok again : Bool), s.ctlOk c = true ∧ tabGet 0 (s.ctl c).steps k ≠ 0 ∧ (∀ t0, tabGet none (s.ctl c).lastStepAt k = some t0 → t0 + 32 * ctlMhz c ≤ s.ctlClock c) ∧ (s.ctl c).changing = false ∧ s.panicAt c k = false ∧ (∀ r ∈ stepKs c k, tabGet 0 (s.ctl c).owed r < 2) ∧ (ok = true ∨ again = true)) ∧
    (∃ (s : State) (c : Ctl) (k t0 : Nat), tabGet none (s.ctl c).deferSince k = some t0 ∧ t0 + 1000 * ctlMhz c ≤ s.ctlClock c ∧ tabGet 0 (s.ctl c).steps k ≠ 0) ∧
    (∃ (s : State) (pair : Nat), s.ctlOk (.deep pair) = true ∧ (s.ctl (.deep pair)).opCur ≠ (s.ctl (.deep pair)).opTarget ∧ s.panicWaits pair (fun _ => true) = false ∧ (∀ p, p < 8 → (s.ctl (.deep p)).changing = false ∧ (p < pair → (s.ctl (.deep p)).opCur = (s.ctl (.deep p)).opTarget))) ∧
    (∃ (s : State) (pair : Nat), (s.ctl (.deep pair)).changing = true ∧ s.cav.heldReads = []) ∧
    (∃ (s : State) (rq : Requester) (pair : Nat), s.mgmtUp = true ∧ pair < 8 ∧ s.mgmtRights rq = true) :=
  ⟨⟨demo, .deep 7, 0, false, 128, by decide +kernel⟩,
   ⟨demoDeep { steps := [(3, 5)], owed := [(7, 1)] }, .deep 7, 3, true, false, by decide +kernel, by decide +kernel, (fun _ h => nomatch h), by decide +kernel⟩,
   ⟨atDeep 1800000 { steps := [(3, 5)], deferSince := [(3, some 0)] }, .deep 7, 3, 0, by decide +kernel⟩,
   ⟨demoDeep { opTarget := 1 }, 7, by decide +kernel⟩,
   ⟨demoDeep { changing := true }, 7, by decide +kernel⟩,
   ⟨demo, .mgmt, 7, by decide +kernel⟩⟩

theorem witness_ScrubLocateMigrate :
    (∃ (s : State) (pair line : Nat) (errs : List SymErr), s.ctlOk (.deep pair) = true ∧ s.nextScrub pair (tabGet 0 s.ras.scrubDeep pair) = some line ∧ s.deepStopped (line / 64) actMaint 64 = false ∧ s.deepTurn { line := line, act := actMaint, rd := true } = true ∧ s.ent? (line / 64) = none ∧ decodeLine (s.rank (s.rankOf (line / 64))).marks errs 0 = .good []) ∧
    (∃ (s : State) (rank line d : Nat), (s.rank rank).locating = some line ∧ d < 10 ∧ (s.rank rank).mark1 ≠ d ∧ (s.rank rank).mark1 ≠ 15 ∧ (s.rank rank).mark2 = 15) ∧
    (∃ (s : State) (rank line : Nat), (s.rank rank).locating = some line ∧ s.mem.merge = [] ∧ s.mem.bmap = []) ∧
    (∃ (s : State) (k n : Nat) (errs : List SymErr), s.dataUp = true ∧ s.ras.migrating = some (k, n) ∧ n < s.userBlks ∧ s.targets ≠ [] ∧ s.deepStopped (rankBlk k n) actMaint 4096 = false ∧ s.deepTurn { line := 64 * rankBlk k n, act := actMaint, rd := true } = true ∧ s.ras.recov = [] ∧ (s.readDeepLines ((List.range 64).map (64 * rankBlk k n + ·)) errs).1 ≠ .locating) ∧
    (∃ (s : State) (k n : Nat), s.dataUp = true ∧ s.ras.migrating = some (k, n) ∧ s.userBlks + s.metaBlks ≤ n ∧ s.targets ≠ [] ∧ s.ras.remap.find? (fun e => e.2 == k) = none ∧ s.ras.retireq = []) :=
  ⟨⟨demoMem (fun m => { m with valid := [0] }), 0, 0, [], by decide +kernel⟩,
   ⟨demo.modRank 63 (fun r => { r with locating := some 5, mark1 := 1 }), 63, 5, 9, by decide +kernel⟩,
   ⟨demo.modRank 63 (fun r => { r with locating := some 5 }), 63, 5, by decide +kernel⟩,
   ⟨demoRas (fun r => { r with migrating := some (63, demo.userBlks - 1) }), 63, demo.userBlks - 1, [], by decide +kernel⟩,
   ⟨demoRas (fun r => { r with migrating := some (63, demo.userBlks + demo.metaBlks) }), 63, demo.userBlks + demo.metaBlks, by decide +kernel⟩⟩

theorem witness_RecoveryAndSweep :
    (∃ (s : State) (b : Nat) (r : Recov) (e : MapEnt) (de re : Bool) (cv : Option Bytes) (src : _) (bs : _), s.ras.recov = [r] ∧ r.block = b ∧ s.ent? b = some e ∧ HostIdle s ∧ s.cav.heldReads = [] ∧ s.mem.merge = [] ∧ s.recoverySource r e de re cv = some (src, bs)) ∧
    (∃ (s : State) (b : Nat) (r : Recov) (e : MapEnt) (de re : Bool) (cv : Option Bytes), s.ras.recov = [r] ∧ r.block = b ∧ s.ent? b = some e ∧ HostIdle s ∧ s.cav.heldReads = [] ∧ s.mem.merge = [] ∧ s.recoverySource r e de re cv = none) ∧
    (∃ (s : State) (o : Op) (blk since : Nat), s.disp.ops = [o] ∧ o.held = some (blk, since) ∧ since + s.holdCycles ≤ s.clk.hmesh) ∧
    (∃ (s : State) (r : HostReq) (t0 : Nat), s.host.reqs = [r] ∧ s.host.ingress = [] ∧ r.id < 2 ^ 32 ∧ r.wait = .recovery t0 ∧ r.op = .rd ∧ t0 + s.holdCycles ≤ s.clk.hmesh) ∧
    (∃ (s : State) (e : Erased), s.mem.erased = [e] ∧ e.size ≠ 0 ∧ setHas e.cleared e.next = false) :=
  ⟨⟨recovering zeroEnt, 3, recov3, zeroEnt, false, false, none, 2, List.replicate 256 0, by unfold HostIdle; decide +kernel⟩,
   ⟨recovering { zeroEnt with replica := false }, 3, recov3, { zeroEnt with replica := false }, false, false, none, by unfold HostIdle; decide +kernel⟩,
   ⟨withOp demo { opOf 0 [] with held := some (3, 0) }, { opOf 0 [] with held := some (3, 0) }, 3, 0, by decide +kernel⟩,
   ⟨demoHost (fun h => { h with reqs := [readOf (.recovery 0)] }), readOf (.recovery 0), 0, by decide +kernel⟩,
   ⟨demoMem (fun m => { m with erased := [erased0] }), erased0, by decide +kernel⟩⟩

theorem witness_PowerTick :
    (∃ (s : State), s.mgmtUp = true ∧ s.mgmt.phase ≠ .recovery ∧ nextAt s.pwr.tickFrom 0 5000 ≤ s.clk.mgmt ∧ s.capsOn = true) ∧
    (∃ (s : State), s.mgmtUp = true ∧ s.mgmt.phase ≠ .recovery ∧ nextAt s.pwr.tickFrom 0 5000 ≤ s.clk.mgmt ∧ s.capsOn = false) :=
  ⟨⟨demo, by decide +kernel⟩,
   ⟨demoMgmt (fun m => { m with phase := .safe }), by decide +kernel⟩⟩

theorem witness_CalibrationAndCaps :
    (∃ (s : State), 100 ≤ s.pwr.ticks ∧ s.pwr.measBad = false ∧ 13108 ≤ s.pwr.factor ∧ s.pwr.factor ≤ 20480) ∧
    (∃ (s : State), s.mgmtUp = true ∧ s.pwr.fault = false ∧ s.pwr.agreed = true ∧ s.mgmt.phase ≠ .recovery ∧ s.pwr.nvmAt ≤ s.clk.mgmt) ∧
    (∃ (s : State) (c : Cap), s.pwr.dem (capKey c) ≠ 0 ∧ 10 ≤ tabGet 0 s.pwr.below (capKey c) ∧ (s.pwr.dem (capKey c) < 39 ∨ s.freqBusy = false ∨ (moduleCap (capKey c) = false ∧ hubCap (capKey c) = false))) ∧
    (∃ (s : State) (o : Op), s.disp.ops = [o] ∧ o.started = false ∧ o.phase = .admitted ∧ o.checked = true ∧ o.waits = [] ∧ o.truncated = false ∧ 42 ≤ s.pwr.levelHub ∧ o.checkedAt + s.pwr.deferLimit * 1400000 ≤ s.clk.hmesh) ∧
    (∃ (s : State) (rq : Requester) (v : Nat), s.mgmtUp = true ∧ s.mgmt.phase ≠ .recovery ∧ s.mgmtRights rq = true ∧ 1200 ≤ bits v 31 16 ∧ bits v 31 16 ≤ s.pb.peakW ∧ 1000 ≤ bits v 15 0 ∧ bits v 15 0 ≤ s.pb.sustainedW ∧ bits v 15 0 ≤ bits v 31 16) ∧
    (∃ (s : State) (rq : Requester) (v : Nat), s.mgmtUp = true ∧ s.mgmt.phase ≠ .recovery ∧ s.mgmtRights rq = true ∧ v < 2 ^ 64 ∧ 200 ≤ bits v 15 0 ∧ bits v 15 0 ≤ s.pb.dieAW ∧ 200 ≤ bits v 31 16 ∧ bits v 31 16 ≤ s.pb.dieBW ∧ 300 ≤ bits v 47 32 ∧ bits v 47 32 ≤ s.pb.hubW) ∧
    (∃ (s : State) (v : Nat), s.mgmtUp = true ∧ s.mgmt.phase ≠ .recovery ∧ (bits v 31 16 < 1200 ∨ s.pb.peakW < bits v 31 16)) :=
  ⟨⟨demoPwr { ticks := 100, factor := 20480 }, by decide +kernel⟩,
   ⟨demoPwr { agreed := true, nvmAt := 500000000 }, by decide +kernel⟩,
   ⟨demoPwr { demand := [(2, 39)], below := [(2, 10)] }, .dieA, by decide +kernel⟩,
   ⟨withOp (demoPwr { levelHub := 42, deferLimit := 10 }) { opOf 0 [] with started := false }, { opOf 0 [] with started := false }, by decide +kernel⟩,
   ⟨demo, .mgmt, 1800 * 2 ^ 16 + 1500, by decide +kernel⟩,
   ⟨demo, .mgmt, 500 * 2 ^ 32 + 600 * 2 ^ 16 + 600, by decide +kernel⟩,
   ⟨demo, 1199 * 2 ^ 16, by decide +kernel⟩⟩

theorem witness_PowerAndPins :
    (∃ (s : State), s.mgmt.standby = false ∧ s.mgmt.resetLow = false) ∧
    (∃ (s : State), s.mgmt.standby = false ∧ s.mgmt.resetLow = true) ∧
    (∃ (s : State) (w : Nat), 2000 ≤ w ∧ s.mgmt.resetLow = false ∧ s.mgmt.standby = true) ∧
    (∃ (w : Nat), w < 2000) ∧
    (∃ (s : State), s.mgmt.resetLow = true ∧ s.mgmt.standby = true) ∧
    (∃ (s : State) (n : Nat) (c : Int), s.railsUp = true ∧ 115 * 16 ≤ c ∧ n < 96) :=
  ⟨⟨{}, by decide +kernel⟩,
   ⟨{ mgmt := { resetLow := true } }, by decide +kernel⟩,
   ⟨demo, 2000, by decide +kernel⟩,
   ⟨1999, by decide +kernel⟩,
   ⟨demoMgmt (fun m => { m with resetLow := true }), by decide +kernel⟩,
   ⟨demo, 95, 1840, by decide +kernel⟩⟩

theorem witness_StartAndReload :
    (∃ (s : State) (n : Nat) (img : Bytes) (b : PromptBook) (c d : Bool) (failed : List UnitId), s.mgmt.phase = .booting ∧ s.mgmt.reload = some (n, img, b, c, d) ∧ (∀ u ∈ failed, u ≠ .hub ∧ ∀ k, u ≠ .deepCtl k)) ∧
    (∃ (s : State) (n : Nat) (img : Bytes) (b : PromptBook) (c d : Bool) (failed : List UnitId), s.mgmt.phase = .booting ∧ s.mgmt.reload = some (n, img, b, c, d) ∧ (.hub ∈ failed ∨ ∃ k, .deepCtl k ∈ failed)) ∧
    (∃ (s : State), s.mgmt.phase = .booting ∧ s.mgmt.fromSafe = false ∧ 30 * mgmtHz ≤ s.clk.mgmt ∧ s.mgmt.trial = false) ∧
    (∃ (s : State) (m : MgmtHdr) (slot : Nat), Answerable s m ∧ s.mgmt.phase = .up ∧ slot < 2 ∧ s.mgmt.fromSafe = false) ∧
    (∃ (s : State) (slot : Nat) (img : Bytes) (b : PromptBook) (changed share : Bool), s.mgmt.phase = .reloading ∧ s.mgmt.reload = some (slot, img, b, changed, share)) ∧
    (∃ (s : State) (m : MgmtHdr), Answerable s m ∧ s.pwr.tripped = true ∧ (∀ x ∈ s.pwr.sensors, x.2 < 95 * 16)) ∧
    (∃ (s : State) (m : MgmtHdr), Answerable s m ∧ s.pwr.tripped = false) ∧
    (∃ (s : State) (m : MgmtHdr) (q : Nat), Answerable s m ∧ s.dataUp = true ∧ s.pb.hasPart q = true ∧ (s.part q).reset = none ∧ (s.part q).st ≠ 3) :=
  ⟨⟨booting, 0, [], demoBook, true, true, [.cluster 63], by decide +kernel, by decide +kernel, by simp⟩,
   ⟨booting, 0, [], demoBook, true, true, [.deepCtl 15], by decide +kernel, by decide +kernel, by simp⟩,
   ⟨{ booting with clk := { mgmt := 30 * mgmtHz } }, by decide +kernel⟩,
   ⟨demo, hdr, 1, answerable_of (by decide +kernel), by decide +kernel⟩,
   ⟨demoMgmt (fun m => { m with phase := .reloading, reload := some (1, [], demoBook, false, false) }), 1, [], demoBook, false, false, by decide +kernel⟩,
   ⟨demoPwr { tripped := true, sensors := [(0, 1519)] }, hdr, answerable_of (by decide +kernel), by decide +kernel⟩,
   ⟨demo, hdr, answerable_of (by decide +kernel), by decide +kernel⟩,
   ⟨demo, hdr, 1, answerable_of (by decide +kernel), by decide +kernel⟩⟩

theorem witness_ManagementCommands :
    (∃ (s : State) (m : MgmtHdr), Answerable s m ∧ s.dataUp = true ∧ (s.mem.rdCnt.map (·.1)).Nodup ∧ (s.mem.wrCnt.map (·.1)).Nodup) ∧
    (∃ (s : State) (m : MgmtHdr) (rid : _) (g : _), Answerable s m ∧ s.pb.region? rid = some g ∧ s.dataUp = true ∧ g.kind = 1 ∧ g.altHome = s.pb.moduleId) ∧
    (∃ (s : State) (m : MgmtHdr) (b : _) (n : _), Answerable s m ∧ b < 8 ∧ 1 ≤ n ∧ n ≤ 64) ∧
    (∃ (s : State) (m : MgmtHdr) (rq : _) (b : _) (v : _), Answerable s m ∧ b < 8 ∧ s.mgmtRights rq = true ∧ s.seqInLog v = true) ∧
    (∃ (s : State) (m : MgmtHdr) (k : _), Answerable s m ∧ k < 8) ∧
    (∃ (s : State) (m : MgmtHdr) (c : _), Answerable s m ∧ c < 256 ∧ c ∉ mgmtCodes) :=
  ⟨⟨demo, hdr, answerable_of (by decide +kernel), by decide +kernel⟩,
   ⟨demoRegions demo [{ reg5 with altHome := 1 }], hdr, 5, { reg5 with altHome := 1 }, answerable_of (by decide +kernel), by decide +kernel⟩,
   ⟨demo, hdr, 7, 64, answerable_of (by decide +kernel), by decide +kernel⟩,
   ⟨demo, hdr, .mgmt, 7, 0, answerable_of (by decide +kernel), by decide +kernel⟩,
   ⟨demo, hdr, 7, answerable_of (by decide +kernel), by decide +kernel⟩,
   ⟨demo, hdr, 255, answerable_of (by decide +kernel), by decide +kernel⟩⟩

theorem witness_OwnershipAndDebug :
    (∃ (s : State) (m : MgmtHdr), Answerable s m ∧ m.secured = true ∧ s.sec.claimed = false) ∧
    (∃ (s : State) (m : MgmtHdr) (nonce : _), Answerable s m ∧ m.secured = true ∧ s.sec.claimed = true ∧ s.sec.bank < 3 ∧ s.sec.nonce = some nonce) :=
  ⟨⟨demo, hdr, answerable_of (by decide +kernel), by decide +kernel⟩,
   ⟨{ demo with sec := { claimed := true, bank := 2, nonce := some [] } }, hdr, [], answerable_of (by decide +kernel), by decide +kernel⟩⟩

theorem witness_FirmwareAndWatchdog :
    (∃ (s : State) (slot : _) (off : _) (data : Bytes), s.mgmtUp = true ∧ s.mgmt.phase ≠ .recovery ∧ slot < 2 ∧ slot ≠ s.mgmt.slot ∧ s.mgmt.xfer = some (1, slot) ∧ off = (s.nor slot).fw.length ∧ off + data.length ≤ 33554432) ∧
    (∃ (s : State) (slot : _), s.mgmtUp = true ∧ s.mgmt.phase ≠ .recovery ∧ s.mgmt.xfer = some (1, slot) ∧ s.fwOk (s.nor slot).fw = true) ∧
    (∃ (s : State) (slot : _), s.mgmtUp = true ∧ s.mgmt.phase ≠ .recovery ∧ s.mgmt.xfer = some (1, slot) ∧ s.fwOk (s.nor slot).fw = false) ∧
    (∃ (s : State) (slot : _), s.mgmtUp = true ∧ s.mgmt.phase ≠ .recovery ∧ slot < 2 ∧ slot ≠ s.mgmt.slot ∧ (s.nor slot).fwSt = .trial) ∧
    (∃ (s : State) (m : _), s.mgmtUp = true ∧ s.mgmt.phase ≠ .recovery ∧ Answerable s m ∧ s.mgmt.trial = true ∧ s.mgmt.upAt.isSome = true) ∧
    (∃ (s : State) (t0 : _), s.mgmtUp = true ∧ s.mgmt.phase ≠ .recovery ∧ s.mgmt.upAt = some t0 ∧ s.mgmt.trial = true ∧ t0 + 600 * mgmtHz ≤ s.clk.mgmt) ∧
    (∃ (s : State), s.mgmtUp = true ∧ s.mgmt.phase ≠ .recovery ∧ s.mgmt.trial = false) ∧
    (∃ (s : State) (e : _) (es : _), s.mgmtUp = true ∧ s.mgmt.phase ≠ .recovery ∧ s.mgmt.xfer = none ∧ (s.logFrom s.mgmt.mirrorNext.1).2 = e :: es) :=
  ⟨⟨demoMgmt (fun m => { m with xfer := some (1, 1) }), 1, 0, [], by decide +kernel⟩,
   ⟨demoMgmt (fun m => { m with xfer := some (1, 0) }), 0, by decide +kernel⟩,
   ⟨{ demoMgmt (fun m => { m with xfer := some (1, 0) }) with sec := { fwSvn := 1 } }, 0, by decide +kernel⟩,
   ⟨demoMgmt (fun m => { m with nor := [(1, { fwSt := .trial })] }), 1, by decide +kernel⟩,
   ⟨demoMgmt (fun m => { m with trial := true, upAt := some 0 }), hdr, by decide +kernel, by decide +kernel, answerable_of (by decide +kernel), by decide +kernel⟩,
   ⟨{ demoMgmt (fun m => { m with trial := true, upAt := some 0 }) with clk := { mgmt := 600 * mgmtHz } }, 0, by decide +kernel⟩,
   ⟨demo, by decide +kernel⟩,
   ⟨demoMgmt (fun m => { m with log := [entry], logNext := 1 }), entry, [], by decide +kernel⟩⟩

theorem witness_WingsQueues :
    (∃ (s : State) (q op : Nat) (o : Op), 24 ≤ q ∧ q < 120 ∧ s.dataUp = true ∧ s.qStalled q = true ∧ (s.wqueue q).stallSince + s.stallCycles q ≤ (s.qReadClock q).1 ∧ s.op? op = some o ∧ ClosedUse.operation op ∈ (s.wqueue q).reissued) ∧
    (∃ (s : State) (q n : Nat) (rest : List Nat), (s.wqueue q).closed = n :: rest ∧ n = (s.wqueue q).wrPkt ∧ (s.wqueue q).heldBursts = []) ∧
    (∃ (s : State) (q n : Nat) (rest : List Nat), (s.wqueue q).closed = n :: rest ∧ n ≠ (s.wqueue q).wrPkt) ∧
    (∃ (s : State) (rq : Requester) (q : Nat), q < 120 ∧ s.mgmtUp = true ∧ s.mgmt.phase ≠ .recovery ∧ s.mgmtRights rq = true) ∧
    (∃ (s : State) (q : Nat), (s.wqueue q).holding = true ∧ (s.wqueue q).heldBursts = [] ∧ (s.wqueue q).holdSince + bits (tabGet 0 s.wq.tstQ q) 47 32 * (s.qWriteClock q).2 / 100 ≤ (s.qWriteClock q).1) :=
  ⟨⟨withOp (demoWq 119 { inPkt := true, reading := true, reissued := [.operation 4] }) opCopy, 119, 4, opCopy, by decide +kernel⟩,
   ⟨demoWq 119 { closed := [0] }, 119, 0, [], by decide +kernel⟩,
   ⟨demoWq 119 { closed := [1] }, 119, 1, [], by decide +kernel⟩,
   ⟨demo, .mgmt, 119, by decide +kernel⟩,
   ⟨demoWq 119 { holding := true }, 119, by decide +kernel⟩⟩

theorem witness_StepTakesFrontCommand : ∃ (s : State), s.pending = [] :=
  ⟨demo, by decide +kernel⟩

theorem witness_StepKeepsMemoryCanonical : ∃ (s t : State), MemoryOk s ∧ step s = .next t :=
  ⟨demo, idle demo, by and_intros <;> first | decide +kernel | rfl⟩
/-! ### Ill-formed commands are refused, one for each check -/

theorem test_ill_formed_addresses : [Instr.registerWrite ⟨.mgmt, none⟩ (2 ^ 64) 8 0, .registerWrite ⟨.ld 8 0, none⟩ 0 4 0, .registerWrite ⟨.ld 0 16, none⟩ 0 4 0, .rcRead ⟨.ld 0 0, some .cachemem⟩ 0 4 0, .memspecrd ⟨0, true⟩ 0 1, .memspecrd ⟨0, true⟩ 0 (2 ^ 52),
    .memwr 0 0 0 0 .noOp true [] false, .memwrptl ⟨0, true⟩ 0 0 0 .noOp (List.replicate 64 0) [] false, .memrd 0 0 0 0 .noOp true [] false [{ q := 120, sop := true, bytes := 1, eop := true, taken := 0 }],
    .birsp ⟨0, true⟩ 0 0 .i (some ([], false)), .dctlXlateMa .mgmt 0 (.full (2 ^ 64)), .dctlXlateMa .mgmt 0 (.upper (2 ^ 32))].any wellFormed = false := by decide +kernel

theorem test_ill_formed_parts : [Instr.unitFailure (.matrix 256), .unitFailure (.deepCtl 16), .unitFailure (.coldonPort 4), .refreshDue (.deep 8) 0 false, .refreshDue (.near 16) 0 false,
    .windowBoundary 6 0 [] [], .windowBoundary 0 0 [] [(3, 64)], .linkTraining 0 7 true true, .linkUp 8, .hdmDecoderCommit 0 0 8 0 0 0 1 256 false, .ideKmKeyProg 0 (.selective 4) 1 0, .ideKmKeyProg 0 .cachemem 1 2,
    .msixUnmask 0 0 (.maskEntry 64 false), .deepReadReturn 0 [{ line := 0, cw := 0, dev := 0, val := 0 }], .deepReadReturn 0 [{ line := 0, cw := 0, dev := 0, val := 256 }]].any wellFormed = false := by
  decide +kernel

theorem test_ill_formed_messages : [Instr.getVersion (.doe 8 0), .getLdInfo (.fmLd 8), .getLdInfo (.other 0 16), .moduleReset { hdr with tag := 65536 }, .moduleReset { hdr with path := .cxlFm 8 },
    .ping { arriving .finish with port := 4 } 0, .ping { arriving .finish with version := 16 } 0, .hello (arriving .finish) (hello0 16384),
    .powerTick { meanMw := 0, meanMv := 0, minMv := 0, maxMv := 0, codeUnchanged := false, eventsA := [], eventsB := [], eventsHub := [], temps := [], rails := [] }].any wellFormed = false := by
  decide +kernel

theorem test_well_formed : [Instr.registerWrite ⟨.mgmt, none⟩ (2 ^ 64 - 1) 8 (2 ^ 64 - 1), .memspecrd ⟨7, true⟩ 15 (2 ^ 52 - 64), .unitFailure (.matrix 255), .refreshDue (.near 15) 31 true,
    .dctlXlateMa .tap 7 (.upper (2 ^ 32 - 1))].all wellFormed = true := by decide +kernel

/-- No row of the opcode table has bits, so no word spells a command. -/
theorem test_no_word_spells_a_command (nbits w : Nat) : decodeTableWord nbits w = none := rfl

/-! ### Values the spec's text and examples give -/

/-- R69 and R73 give the check values of "123456789". -/
theorem test_check_values : crc32c [0x31, 0x32, 0x33, 0x34, 0x35, 0x36, 0x37, 0x38, 0x39] = 0xE3069283 ∧ crc16 [0x31, 0x32, 0x33, 0x34, 0x35, 0x36, 0x37, 0x38, 0x39] = 0x29B1 := by decide +kernel

/-- The example after R260: where MA 0x1234_5040 lies. -/
theorem test_dram_address : dramAddr 1 0x12345040 = { sr := 26, cid := 5, bg := 3, ba := 0, row := 2, col := 544 } := by decide +kernel

/-- The lengths of Table 5-3. -/
def exampleLens : List Nat :=
  (List.range 256).map (fun e => if e = 0x7B ∨ e = 0x7C then 2 else if e = 0x7A ∨ e = 0x7D then 3 else if e = 0x79 ∨ e = 0x7E then 4 else if e = 0x78 ∨ e = 0x7F then 5
    else if e = 0x00 ∨ e = 0x77 then 6 else if e = 0x76 ∨ e = 0x80 then 7 else if e = 0x74 ∨ e = 0x75 ∨ e = 0x81 ∨ e = 0x82 then 8 else 0)

/-- The codes of Table 5-3, and the first substream bytes of its example. -/
theorem test_golas_codes : tableValid exampleLens = true ∧
    ((codesOf exampleLens).filter (fun c => [0x00, 0x79, 0x7B, 0x7C, 0x82].contains c.val)).map (fun c => (c.val, c.len, c.code)) =
      [(0x00, 6, 0x3C), (0x79, 4, 0xC), (0x7B, 2, 0), (0x7C, 2, 1), (0x82, 8, 0xFF)] ∧
    packBits 2 ([0x79, 0x7B, 0x7C, 0x00].flatMap (fun e => (((codesOf exampleLens).find? (fun c => c.val == e)).map Code.bits).getD [])) = [0x83, 0x0F] := by decide +kernel

/-- The exponents and plane bytes of the same example. -/
theorem test_golas_planes : [0x3C8F, 0xBDB2, 0x3E05, 0x0000].map (fun v => (expOf 0 v, planeField 0 v)) = [(0x79, 0x0F), (0x7B, 0xB2), (0x7C, 0x05), (0, 0)] := by decide +kernel

/-- The tokens of the example before R131, and after them runs of zeros to the block's end. -/
theorem test_legacy_tokens : (legacyDecode ([0x03, 0x41, 0x42, 0x43, 0x44, 0x85, 0x00, 0xC4, 0x0B] ++ (List.replicate 61 [0xBF, 0x00]).flatten ++ [0xB3, 0x00])).map (fun b => b.take 16) =
    some [0x41, 0x42, 0x43, 0x44, 0, 0, 0, 0, 0, 0, 0, 0, 0x41, 0x42, 0x43, 0x44] := by decide +kernel

/-- The MXFP4 example after R145. -/
theorem test_mxfp4 : (toMxBlock (.flt e2m1) .rne false ([f32 0x42200000, f32 0xC1500000, f32 0x4039999A, f32 0x3E99999A] ++ List.replicate 28 (f32 0)) 0).1 = 0x82 ∧
    ((toMxBlock (.flt e2m1) .rne false ([f32 0x42200000, f32 0xC1500000, f32 0x4039999A, f32 0x3E99999A] ++ List.replicate 28 (f32 0)) 0).2.1).take 4 = [6, 0xB, 1, 0] := by decide +kernel

/-- The example after R147: 1 + 3 × 2^−9 to BF16 under RNE and RTZ, and the 16 bits a draw is held against under SR. -/
theorem test_bf16_rounding : (narrowFlt bf16 .rne false (f32 0x3F80C000) 0).1 = 0x3F81 ∧ (narrowFlt bf16 .rtz false (f32 0x3F80C000) 0).1 = 0x3F80 ∧
    (split bf16.mbits bf16.qmin 0x80C000 (-23)).frac16 = 0xC000 := by decide +kernel

/-- The example of a PARITY4 region before R205. -/
theorem test_stripe_units :
    let g : PbRegion := { reg5 with mode := 2, nslots := 3, size := 0x1000000000, stripeBase := 0x10000000000, members := (List.range 10).map (0x40 + ·) }
    g.per = 0x200000000 ∧ g.dataCell 81921 = (2, 10240) ∧ g.redCell 81921 = some (0, 10240) ∧ caddr (g.member 2) (g.offset 1 10240 0x2345) = 0x4210228002345 := by decide +kernel

/-- The example of a DMN-1-7T with SHARE_PCT = 33 after R200. -/
theorem test_share_base : ({ variant := 2, mgmt := { pb := { sharePct := 33 } } } : State).shareBase = 0x050680000000 := by decide +kernel

/-- The capacities after one rank of a channel pair is retired: the example after R252. -/
theorem test_rank_retired_capacity : let s := demo.modRank 5 (fun r => { r with st := 3 })
    s.capNow 1 0 = 903168 ∧ ((List.range 8).map (s.capNow 1)).sum = 8128512 := by decide +kernel

/-- A Coldon frame of 8,350 bytes is 33 read words: the example after R359. -/
theorem test_frame_words : ((demo.qTake { q := 20, sop := true, bytes := 8350, eop := true, taken := 0 }).wqueue 20).level = 33 := by decide +kernel

/-! ### Single steps -/

/-- The data, poison and DevLoad of the newest output. -/
def lastOut (o : Host.Outcome State Fault Refusal) : Option Output :=
  match o with
  | .next s => s.outs.head?
  | _ => none

/-- A resident line that was never written reads as zero (R279), without poison. -/
theorem test_memrd : lastOut (exec (.memrd 0 0 7 0x1FC0 .noOp true [] false []) demo) = some (.memData 0 0 7 (List.replicate 64 0) false .noOp 0) := by decide +kernel

/-- A write over the cap of the prompt book leaves the cap (Table 14-3). -/
theorem test_cap_refused : (match exec (.pwrCapModule .mgmt (1801 * 2 ^ 16 + 1500)) demo with | .next s => s.pwr.peak | _ => 1) = 0 := by decide +kernel

/-- A doorbell write of more entries than the ring has stops the ring (Table 3-9). -/
theorem test_doorbell_overrun : (match exec (.sqTailWrite 0 0 0 17) demo with | .next s => (s.ring 0).st | _ => 0) = 2 := by decide +kernel

/-- COPY moves its bytes. -/
theorem test_copy : (match exec (.copy 4) (withOp { demo with mem := { demo.mem with near := [(5, 9)] } } opCopy) with | .next s => memRead s.mem.near 0x1005 | _ => 0) = 9 := by decide +kernel

/-- FILL repeats its pattern from its address on (Table 7-6). -/
theorem test_fill : (match exec (.fill 4) (withOp demo (opOf 0x03 [(16, 8, 0x1000), (24, 8, 64), (32, 8, 0x0807060504030201)])) with | .next s => memBytes s.mem.near 0x1008 4 | _ => []) =
    [1, 2, 3, 4] := by decide +kernel

/-- Table 18-9, step 3: a line of a closed egress flit whose bytes are missing is sent as all ones with poison. -/
theorem test_closed_egress_line : deadSent 3 1 5 [.memCmp 3 1 5 .noOp 0, .memData 3 1 5 (List.replicate 64 7) false .noOp 0] =
    [.memCmp 3 1 5 .noOp 0, .memData 3 1 5 onesLine true .noOp 0] := by decide

/-- R362: TRUNCATED ranks directly after PEER_UNREACHABLE. -/
theorem test_closed_twice : closedShort true stConflict 30 = (stTruncated, dtNone) ∧ closedShort true stPeerUnreachable 31 = (stPeerUnreachable, 31) := by decide

/-! ### The ciphers of chapter 15, by the values that their own standards publish -/

/-- FIPS 180-4: SHA-512 of "abc". -/
theorem test_sha512 : beNat (sha512 [0x61, 0x62, 0x63]) = 0xddaf35a193617abacc417349ae20413112e6fa4e89a97ea20a9eeee64b55d39a2192992a274fc1a836ba3c23a3feebbd454d4423643ce80e2a9ac94fa54ca49f := by decide +kernel

/-- FIPS 197, appendix C.3: AES-256 of one block. -/
theorem test_aes : beNat (bytesOf (aesEnc (aesKeys ((List.range 32).map (fun i => (i : Byte)))) ((List.range 16).map (fun i => 17 * i)))) =
    0x8ea2b7ca516745bfeafc49904b496089 := by decide +kernel

/-- The GCM specification, test case 13: the tag of an empty message under a key of zeros. -/
theorem test_gcm : beNat (gcmSeal (List.replicate 32 0) (List.replicate 12 0) [] []).2 = 0x530f8afbc74536b9a963b4f1c4cb738b := by decide +kernel

/-- IEEE 1619, vector 10: the first 32 bytes of data unit 0xFF under XTS-AES-256, and back. -/
theorem test_xts : let k := beBytes 32 0x2718281828459045235360287471352662497757247093699959574966967627 ++ beBytes 32 0x3141592653589793238462643383279502884197169399375105820974944592
    let m := (List.range 32).map (fun i => (i : Byte))
    beNat (xts false k (leBytes 16 0xFF) 0 m) = 0x1c3b3a102f770386e4836c99e370cf9bea00803f5e482357a4ae12d414a3e63b ∧
      xts true k (leBytes 16 0xFF) 0 (xts false k (leBytes 16 0xFF) 0 m) = m := by decide +kernel

/-- The public key of private key 1 is the base point, and it verifies a signature made with it. -/
theorem test_ecdsa : ecPublic 1 = baseKey ∧ ecdsaVerify baseKey (sha512 []) (ecdsaSign 1 0 (sha512 [])) = true := by decide +kernel

end Sys2Proof.Tests
end

/-! SUPPORT. The frame of a run of updates, and what a callboard entry, an interrupt, the pumps and the settling of slots leave alone. -/

namespace Sys2Proof

open Sys2Proof.Machine

/-! ### The frame of a run of updates -/

theorem Piece.Same.trans {p : Piece} {s t u : State} (h : p.Same s t) (k : p.Same t u) : p.Same s u := by
  cases p <;> exact Eq.trans k h

theorem OnlyChanges.refl (l : List Piece) (s : State) : OnlyChanges l s s := by
  intro p _; cases p <;> rfl

theorem OnlyChanges.trans {l : List Piece} {s t u : State} (h : OnlyChanges l s t) (k : OnlyChanges l t u) : OnlyChanges l s u :=
  fun p hp => Piece.Same.trans (h p hp) (k p hp)

theorem OnlyChanges.mono {l m : List Piece} {s t : State} (h : OnlyChanges l s t) (hl : l ⊆ m) : OnlyChanges m s t :=
  fun p hp => h p (fun hm => hp (hl hm))

theorem OnlyChanges.foldl {α : Type} {l : List Piece} {f : State → α → State} (h : ∀ s x, OnlyChanges l s (f s x)) (xs : List α) (s : State) :
    OnlyChanges l s (xs.foldl f s) :=
  List.foldlRecOn xs f (OnlyChanges.refl l s) (fun t ht x _ => OnlyChanges.trans ht (h t x))

end Sys2Proof

namespace Sys2Proof.Machine

theorem onlyChanges_modPart (s : State) (p : Nat) (f : Part → Part) : OnlyChanges [.parts] s (s.modPart p f) := by
  intro x hx
  cases x with
  | parts => simp at hx
  | _ => rfl

theorem onlyChanges_modRing (s : State) (n : Nat) (f : Ring → Ring) : OnlyChanges [.disp] s (s.modRing n f) := by
  intro x hx
  cases x with
  | disp => simp at hx
  | _ => rfl

@[simp] theorem part_modRing (s : State) (n k : Nat) (f : Ring → Ring) : (s.modRing n f).part k = s.part k := rfl

theorem onlyChanges_pushLog (s : State) (e : LogEnt) : OnlyChanges [.mgmt] s (s.pushLog e) := by
  intro x hx
  cases x with
  | mgmt => simp at hx
  | _ => simp [Piece.Same]

/-! ### Interrupts and callboard entries (R75, R347) -/

/-- `t` is `s` with messages sent or left pending: only the outputs and the table of LDs differ. -/
def Signalled (s t : State) : Prop := ∃ outs lds, t = { s with outs := outs, host := { s.host with lds := lds } }

theorem Signalled.refl (s : State) : Signalled s s := ⟨s.outs, s.host.lds, rfl⟩

theorem Signalled.trans {s t u : State} (h : Signalled s t) (k : Signalled t u) : Signalled s u := by
  obtain ⟨_, _, rfl⟩ := h
  obtain ⟨outs, lds, rfl⟩ := k
  exact ⟨outs, lds, rfl⟩

theorem Signalled.foldl {α : Type} {f : State → α → State} (h : ∀ s x, Signalled s (f s x)) (xs : List α) (s : State) : Signalled s (xs.foldl f s) :=
  List.foldlRecOn xs f (Signalled.refl s) (fun t ht x _ => Signalled.trans ht (h t x))

theorem Signalled.onlyChanges {s t : State} (h : Signalled s t) : OnlyChanges [.outs, .host] s t := by
  obtain ⟨_, _, rfl⟩ := h
  intro x hx
  cases x with
  | outs => simp at hx
  | host => simp at hx
  | _ => rfl

theorem signalled_msix (s : State) (i v : Nat) (why : Option Notice) : Signalled s (s.msix i v why) := by
  simp only [State.msix]
  split
  · exact ⟨_, s.host.lds, rfl⟩
  · exact ⟨s.outs, _, rfl⟩

theorem signalled_vector0 (s : State) (p : Nat) (why : Notice) : Signalled s (s.vector0 p why) :=
  Signalled.foldl (fun t i => signalled_msix t i 0 (some why)) _ s

theorem signalled_notifyEvent (s : State) (part sev : Nat) : Signalled s (s.notifyEvent part sev) := by
  refine Signalled.foldl (fun t x => ?_) _ s
  split
  · exact signalled_msix t x.1 0 (some .eventRecord)
  · exact Signalled.refl t

/-- A callboard entry takes the next number, and the LDs that have asked for it are signalled. -/
theorem logEv_signalled (s : State) (e : Ev) (part unit count value : Nat) :
    ∃ x : LogEnt, x.seq = s.mgmt.logNext ∧ Signalled (s.pushLog x) (s.logEv e part unit count value) :=
  ⟨_, rfl, signalled_notifyEvent _ part _⟩

theorem onlyChanges_logEv (s : State) (e : Ev) (part unit count value : Nat) :
    OnlyChanges [.mgmt, .outs, .host] s (s.logEv e part unit count value) := by
  obtain ⟨x, -, h⟩ := logEv_signalled s e part unit count value
  exact OnlyChanges.trans ((onlyChanges_pushLog s x).mono (by simp)) (h.onlyChanges.mono (by simp))

section
variable (s : State) (e : Ev) (part unit count value : Nat)

@[simp] theorem logEv_parts : (s.logEv e part unit count value).parts = s.parts := onlyChanges_logEv s e part unit count value .parts (by decide)
@[simp] theorem logEv_part (k : Nat) : (s.logEv e part unit count value).part k = s.part k := by simp [State.part]
@[simp] theorem logEv_disp : (s.logEv e part unit count value).disp = s.disp := onlyChanges_logEv s e part unit count value .disp (by decide)
@[simp] theorem logEv_ring (k : Nat) : (s.logEv e part unit count value).ring k = s.ring k := by simp [State.ring]
@[simp] theorem logEv_mem : (s.logEv e part unit count value).mem = s.mem := onlyChanges_logEv s e part unit count value .mem (by decide)
@[simp] theorem logEv_gol : (s.logEv e part unit count value).gol = s.gol := onlyChanges_logEv s e part unit count value .gol (by decide)

/-- A callboard entry leaves of the host side all but the LDs' pending vectors. -/
theorem logEv_host : ∃ lds, (s.logEv e part unit count value).host = { s.host with lds := lds } := by
  obtain ⟨x, -, outs, lds, h⟩ := logEv_signalled s e part unit count value
  exact ⟨lds, by rw [h]; rfl⟩

@[simp] theorem logEv_reqs : (s.logEv e part unit count value).host.reqs = s.host.reqs := by
  obtain ⟨_, h⟩ := logEv_host s e part unit count value; rw [h]
@[simp] theorem logEv_ingress : (s.logEv e part unit count value).host.ingress = s.host.ingress := by
  obtain ⟨_, h⟩ := logEv_host s e part unit count value; rw [h]
@[simp] theorem logEv_snoop : (s.logEv e part unit count value).host.snoop = s.host.snoop := by
  obtain ⟨_, h⟩ := logEv_host s e part unit count value; rw [h]
@[simp] theorem logEv_bi : (s.logEv e part unit count value).host.bi = s.host.bi := by
  obtain ⟨_, h⟩ := logEv_host s e part unit count value; rw [h]

@[simp] theorem logEv_logNext : (s.logEv e part unit count value).mgmt.logNext = (s.mgmt.logNext + 1) % 2 ^ 32 := by
  obtain ⟨x, hx, _, _, h⟩ := logEv_signalled s e part unit count value
  rw [h, ← hx]; rfl

end

@[simp] theorem vector0_parts (s : State) (p : Nat) (why : Notice) : (s.vector0 p why).parts = s.parts := (signalled_vector0 s p why).onlyChanges .parts (by decide)
@[simp] theorem vector0_part (s : State) (p : Nat) (why : Notice) (k : Nat) : (s.vector0 p why).part k = s.part k := by simp [State.part]
@[simp] theorem vector0_mem (s : State) (p : Nat) (why : Notice) : (s.vector0 p why).mem = s.mem := (signalled_vector0 s p why).onlyChanges .mem (by decide)

/-! ### What has nothing to do: the pumps and the settling of the table slots -/

theorem pumpReqs_of_hostIdle {s : State} (h : HostIdle s) : s.pumpReqs = s := by
  obtain ⟨hreqs, hingress⟩ := h
  simp [State.pumpReqs, hreqs, hingress]

theorem pumpSnp_of_bi_nil {s : State} (h : s.host.bi = []) : s.pumpSnp = s := by
  simp [State.pumpSnp, h]

/-- A module that shares no table tells no other module of a slot that is settled. -/
theorem settleTables_of_ownSlots {s : State} (h : OwnSlots s) : s.settleTables = s.settleSlots := by
  refine List.foldlRecOn s.gol.slots _ (motive := fun t => t = s.settleSlots) rfl (fun t ht x hx => ?_)
  obtain ⟨himp, hnone⟩ := h x hx
  simp [himp, hnone, ht]

theorem ownSlots_settleSlots {s : State} (h : OwnSlots s) : OwnSlots s.settleSlots := by
  intro x hx
  obtain ⟨y, hy, rfl⟩ := List.mem_map.1 hx
  obtain ⟨himp, hnone⟩ := h y hy
  simp only [himp]
  split_ifs <;> simp [himp, hnone]

@[simp] theorem settleSlots_host (s : State) : s.settleSlots.host = s.host := rfl
@[simp] theorem settleSlots_mgmt (s : State) : s.settleSlots.mgmt = s.mgmt := rfl
@[simp] theorem settleSlots_part (s : State) (k : Nat) : s.settleSlots.part k = s.part k := rfl
@[simp] theorem settleSlots_ring (s : State) (k : Nat) : s.settleSlots.ring k = s.ring k := rfl

/-! ### Eligible rings (R68) -/

theorem onlyChanges_noteEligible (s : State) : OnlyChanges [.disp] s s.noteEligible := by
  refine OnlyChanges.foldl (fun t r => ?_) _ s
  split
  · exact onlyChanges_modRing t _ _
  · exact OnlyChanges.refl _ t

@[simp] theorem noteEligible_parts (s : State) : s.noteEligible.parts = s.parts := onlyChanges_noteEligible s .parts (by decide)
@[simp] theorem noteEligible_part (s : State) (k : Nat) : s.noteEligible.part k = s.part k := by simp [State.part]
@[simp] theorem noteEligible_mem (s : State) : s.noteEligible.mem = s.mem := onlyChanges_noteEligible s .mem (by decide)
@[simp] theorem noteEligible_mgmt (s : State) : s.noteEligible.mgmt = s.mgmt := onlyChanges_noteEligible s .mgmt (by decide)

@[simp] theorem noteEligible_ring_st (s : State) (n : Nat) : (s.noteEligible.ring n).st = (s.ring n).st := by
  refine List.foldlRecOn s.pb.rings _ (motive := fun t : State => (t.ring n).st = (s.ring n).st) rfl (fun t ht r _ => ?_)
  split
  · by_cases hn : n = r.ring
    · subst hn; simpa using ht
    · simpa [hn] using ht
  · exact ht

end Sys2Proof.Machine

/-! SUPPORT. Accesses of a host to the doorbell slots of its BAR0, and the settlement of O21. -/

namespace Sys2Proof.Machine

/-! ### Accesses of a host to BAR0 (R389) -/

theorem ldPart_eq_some {s : State} {p l q : Nat} (h : s.ldPart p l = some q) : s.ldReach p l = true ∧ s.barPart p l = q := by
  simp only [State.ldPart, Option.ite_none_right_eq_some, Bool.and_eq_true, bne_iff_ne] at h
  obtain ⟨⟨hreach, hsafe⟩, hpart⟩ := h
  simp_all [State.ldReach, State.barPart]

theorem exec_rcRead_of_ldReach {s : State} {p l : Nat} (h : s.ldReach p l = true) (a n c : Nat) :
    exec (.rcRead ⟨.ld p l, none⟩ a n c) s = .next ((s.barRead p l a n c).2.emit (.regValue (.ld p l) a n (s.barRead p l a n c).1)) := by
  have harm : exec (.rcRead ⟨.ld p l, none⟩ a n c) s = execRcRead ⟨.ld p l, none⟩ a n c s := rfl
  simp [harm, execRcRead, State.ioMacFail, State.readReg, h]

theorem exec_registerWrite_of_ldReach {s : State} {p l : Nat} (h : s.ldReach p l = true) (a n v : Nat) :
    exec (.registerWrite ⟨.ld p l, none⟩ a n v) s = s.barWrite p l a n v := by
  have harm : exec (.registerWrite ⟨.ld p l, none⟩ a n v) s = execRegisterWrite ⟨.ld p l, none⟩ a n v s := rfl
  simp [harm, execRegisterWrite, State.ioMacFail, h]

/-! ### The doorbell slots (R66, Tables 3-8 to 3-15) -/

theorem barBlock_doorbell (q : Nat) {n off : Nat} (hn : n < 4096) (hoff : off < 0x40) : barBlock q (0x02000000 + 64 * n + off) = some (.ring n, off) := by
  have hslot : (0x02000000 + 64 * n + off - 0x02000000) / 64 = n := by omega
  have hin : (0x02000000 + 64 * n + off) % 64 = off := by omega
  simp only [barBlock, hslot, hin]
  rw [if_neg (by omega), if_neg (by omega), if_pos (by omega)]

/-- Every register of a slot is 32 bits wide, and none lies at the offsets from 0x20 (R66). -/
theorem ringReg_eq_some {s : State} {n off : Nat} {x : Reg} (h : s.ringReg n off = some x) : x.width = 4 ∧ off < 0x20 := by
  simp only [State.ringReg, r32] at h
  split at h
  · split_ifs at h <;> · cases h; simp_all
  · split_ifs at h <;> · cases h; simp_all

theorem ringReg_reserved (s : State) (n : Nat) {off : Nat} (h : 0x20 ≤ off) : s.ringReg n off = none :=
  Option.eq_none_iff_forall_ne_some.2 (fun _ hx => by have := (ringReg_eq_some hx).2; omega)

theorem regAt_ring (s : State) (v : View) (n : Nat) : s.regAt v (.ring n) = s.ringReg n := rfl

theorem hit_ringReg_of_some {s : State} {n off : Nat} {x : Reg} (h4 : off % 4 = 0) (hx : s.ringReg n off = some x) : hit (s.ringReg n) off 4 = .whole x off := by
  simp [hit, h4, hx, (ringReg_eq_some hx).1]

/-- The register below a reserved offset has 32 bits, so the offset is no upper half. -/
theorem hit_ringReg_of_none {s : State} {n off : Nat} (h4 : off % 4 = 0) (hx : s.ringReg n off = none) : hit (s.ringReg n) off 4 = .reserved := by
  cases hy : s.ringReg n (off - 4) with
  | some y => simp [hit, h4, hx, hy, (ringReg_eq_some hy).1]
  | none => simp [hit, h4, hx, hy]

section
variable {s : State} {p l q n : Nat} (hq : s.ldPart p l = some q)
include hq

theorem doorbell_of_foreign (hf : s.pb.ringOf? q n = none) (f : Nat → PbRing → State) : s.doorbell p l n f = s.noPerm q := by
  simp [State.doorbell, hq, hf]

theorem doorbell_of_own {r : PbRing} (hr : s.pb.ringOf? q n = some r) (f : Nat → PbRing → State) : s.doorbell p l n f = f q r := by
  simp [State.doorbell, hq, hr]

theorem barRead_foreign (hn : n < 4096) (hf : s.pb.ringOf? q n = none) {off : Nat} (hoff : off < 0x40) (h4 : off % 4 = 0) :
    s.barRead p l (0x02000000 + 64 * n + off) 4 0 = (0, s) := by
  have haligned : (0x02000000 + 64 * n + off) % 4 = 0 := by omega
  simp [State.barRead, (ldPart_eq_some hq).2, barBlock_doorbell q hn hoff, hf, haligned]

theorem barRead_own {r : PbRing} (hn : n < 4096) (hr : s.pb.ringOf? q n = some r) {off : Nat} (hoff : off < 0x40) :
    s.barRead p l (0x02000000 + 64 * n + off) 4 0 = s.readBlk (.ld p l) (.host p l) (.ring n) (0x02000000 + 64 * n) off 4 0 := by
  simp [State.barRead, (ldPart_eq_some hq).2, barBlock_doorbell q hn hoff, hr]

/-- Every register of a slot counts a write to it that is of another partition (R66). -/
theorem barStore_foreign (hf : s.pb.ringOf? q n = none) (off : Nat) (a : Access64) : s.barStore p l (.ring n) off a = .next (s.noPerm q) := by
  simp only [State.barStore, execSqTailWrite, execCqHeadWrite, execRingReset, execRingIntMaskWrite, State.pointerWrite, doorbell_of_foreign hq hf, ite_self]

theorem barWrite_foreign (hn : n < 4096) (hf : s.pb.ringOf? q n = none) {off : Nat} (hoff : off < 0x40) (h4 : off % 4 = 0) (v : Nat) :
    s.barWrite p l (0x02000000 + 64 * n + off) 4 v = .next (s.noPerm q) := by
  simp only [State.barWrite, (ldPart_eq_some hq).2, barBlock_doorbell q hn hoff, regAt_ring]
  cases hx : s.ringReg n off with
  | some x => simp [hit_ringReg_of_some h4 hx, Hit.access, barStore_foreign hq hf]
  | none => simp [hit_ringReg_of_none h4 hx, Hit.access, doorbell_of_foreign hq hf]

theorem barWrite_own_reserved {r : PbRing} (hn : n < 4096) (hr : s.pb.ringOf? q n = some r) {off : Nat} (hoff : off < 0x40) (h4 : off % 4 = 0)
    (hres : 0x20 ≤ off) (v : Nat) : s.barWrite p l (0x02000000 + 64 * n + off) 4 v = .next s := by
  have hhit := hit_ringReg_of_none h4 (ringReg_reserved s n hres)
  simp [State.barWrite, (ldPart_eq_some hq).2, barBlock_doorbell q hn hoff, regAt_ring, hhit, Hit.access, doorbell_of_own hq hr]

/-- A pointer write to a ring that is being reset is ignored and counted (R81). -/
theorem pointerWrite_of_resetting {r : PbRing} (hr : s.pb.ringOf? q n = some r) (hst : (s.ring n).st = 3) (f : Nat → PbRing → State) :
    s.pointerWrite p l n f = s.noPerm q := by
  simp [State.pointerWrite, doorbell_of_own hq hr, hst]

end

/-! ### RING_STATUS of a ring that is being reset (Table 3-12) -/

theorem ring?_of_ringOf? {b : PromptBook} {q n : Nat} {r : PbRing} (h : b.ringOf? q n = some r) : b.ring? n = some r :=
  (Option.filter_eq_some_iff.1 h).1

theorem ringReg_status {s : State} {n : Nat} {r : PbRing} (h : s.pb.ring? n = some r) :
    s.ringReg n 0x10 = r32 (fld (s.ring n).error 8 24 + fld (s.ringOps n) 9 4 + s.ringState n % 8) := by
  simp [State.ringReg, h]

/-- STATE is the low three bits of RING_STATUS. -/
theorem ringStatus_mod_eight (e k st : Nat) : (fld e 8 24 + fld k 9 4 + st % 8) % 2 ^ 32 % 8 = st % 8 := by
  simp only [fld, Nat.shiftLeft_eq]
  omega

theorem rcRead_ringStatus {s : State} {p l q n : Nat} {r : PbRing} (hq : s.ldPart p l = some q) (hn : n < 4096) (hr : s.pb.ringOf? q n = some r) :
    exec (.rcRead ⟨.ld p l, none⟩ (0x02000010 + 64 * n) 4 0) s = .next (s.emit (.regValue (.ld p l) (0x02000010 + 64 * n) 4
      ((fld (s.ring n).error 8 24 + fld (s.ringOps n) 9 4 + s.ringState n % 8) % 2 ^ 32))) := by
  have haddr : 0x02000010 + 64 * n = 0x02000000 + 64 * n + 0x10 := by omega
  have hhit := hit_ringReg_of_some (off := 0x10) rfl (ringReg_status (s := s) (ring?_of_ringOf? hr))
  rw [exec_rcRead_of_ldReach (ldPart_eq_some hq).1, haddr, barRead_own hq hn hr (by omega)]
  simp [State.readBlk, regAt_ring, hhit]

/-- Settles O21: a foreign slot is reached through `doorbell_of_foreign` whatever its offset holds, and no slot has a register at its reserved offsets. -/
theorem doorbellSlots : Obligations.DoorbellSlots := by
  intro s p l q n hq hn
  obtain ⟨hreach, -⟩ := ldPart_eq_some hq
  refine ⟨fun off hoff h4 hf => ?_, fun off v hoff h4 hf => ?_, fun v hf => ?_, fun off v r hres hoff h4 hr => ⟨?_, ?_⟩⟩
  · rw [exec_rcRead_of_ldReach hreach, barRead_foreign hq hn hf hoff h4]
  · rw [exec_registerWrite_of_ldReach hreach, barWrite_foreign hq hn hf hoff h4]
    rfl
  · have hcount : ∀ f, s.doorbell p l n f = s.noPerm q := doorbell_of_foreign hq hf
    exact ⟨congrArg _ (hcount _), congrArg _ (hcount _), congrArg _ (hcount _), congrArg _ (hcount _)⟩
  · rw [exec_rcRead_of_ldReach hreach, barRead_own hq hn hr hoff]
    simp [State.readBlk, regAt_ring, hit_ringReg_of_none h4 (ringReg_reserved s n hres)]
  · rw [exec_registerWrite_of_ldReach hreach, barWrite_own_reserved hq hn hr hoff h4 hres]

end Sys2Proof.Machine

/-! SUPPORT. Steps 1 to 3 of a partition reset of a partition with nothing under way. -/

namespace Sys2Proof.Machine

/-! ### A partition that is being reset and holds nothing (R78 steps 1 to 3) -/

/-- Partition `q` is being reset, and neither it nor a host has anything under way: what every part of steps 1 to 3 keeps. -/
structure Halted (s : State) (q : Nat) : Prop where
  st : (s.part q).st = 1
  pins : (s.part q).pins = []
  cues : (s.part q).cue.cues = []
  ops : s.disp.ops = []
  idle : HostIdle s
  own : OwnSlots s
  snoop : s.host.snoop = []
  bi : s.host.bi = []

section
variable {s : State} {q : Nat}

theorem halted_of_nothingUnderWay (h : NothingUnderWay s q) : Halted (s.modPart q (fun x => { x with st := 1 })) q := by
  obtain ⟨-, -, hpins, hcues, hops, hidle, hown, hsnoop, hbi, -⟩ := h
  exact { st := by simp, pins := by simpa using hpins, cues := by simpa using hcues, ops := hops, idle := hidle, own := hown, snoop := hsnoop, bi := hbi }

theorem Halted.opsOf (h : Halted s q) (p : Nat) : s.opsOf p = [] := by
  simp [State.opsOf, h.ops]

theorem Halted.modPart (h : Halted s q) (p : Nat) {f : Part → Part} (hst : ∀ x, (f x).st = x.st) (hpins : ∀ x, x.pins = [] → (f x).pins = [])
    (hcues : ∀ x, x.cue.cues = [] → (f x).cue.cues = []) : Halted (s.modPart p f) q := by
  by_cases hp : q = p
  · subst hp
    exact { h with st := by simp [hst, h.st], pins := by simp [hpins, h.pins], cues := by simp [hcues, h.cues] }
  · exact { h with st := by simp [hp, h.st], pins := by simp [hp, h.pins], cues := by simp [hp, h.cues] }

theorem Halted.logEv (h : Halted s q) (e : Ev) (part unit count value : Nat) : Halted (s.logEv e part unit count value) q where
  st := by simp [h.st]
  pins := by simp [h.pins]
  cues := by simp [h.cues]
  ops := by simp [h.ops]
  idle := by simpa [HostIdle] using h.idle
  own := by simpa [OwnSlots] using h.own
  snoop := by simp [h.snoop]
  bi := by simp [h.bi]

theorem Halted.settleTables (h : Halted s q) : Halted s.settleTables q := by
  rw [settleTables_of_ownSlots h.own]
  exact { h with own := ownSlots_settleSlots h.own }

theorem Halted.discardPosted (h : Halted s q) (r : Nat) : Halted (s.discardPosted r).2 q := { h with }

/-- A host that holds no line is declared dead without an orphan line (R50, R77). -/
theorem Halted.declareDead (h : Halted s q) (i : Nat) : Halted (s.declareDead i) q := by
  simp only [State.declareDead, h.snoop, h.bi, List.filter_nil, List.map_nil, List.foldl_nil, ite_self]
  refine Halted.logEv ?_ ..
  split
  · exact { h with snoop := rfl, bi := rfl }
  · refine Halted.modPart ?_ _ (fun _ => rfl) (fun _ hx => hx) (fun _ hx => hx)
    exact { h with snoop := rfl, bi := rfl }

theorem Halted.endReqs (h : Halted s q) (p : Nat) : Halted (s.endReqs p) q := by
  simpa [State.endReqs, h.idle.1] using h

theorem Halted.dropSheet (h : Halted s q) : Halted (s.dropSheet q false) q := by
  simp only [State.dropSheet, h.cues, List.length_nil, List.range_zero, List.foldl_nil]
  refine Halted.modPart ?_ q (fun _ => rfl) (fun _ hx => hx) (fun _ _ => rfl)
  exact { h with }

theorem Halted.releasePins (h : Halted s q) : Halted (s.releasePins q) q := by
  simp only [State.releasePins, h.pins, List.foldl_nil]
  refine Halted.settleTables ?_
  exact h.modPart q (fun _ => rfl) (fun _ _ => rfl) (fun _ hx => hx)

theorem Halted.foldl_discardPosted (h : Halted s q) (rs : List Nat) :
    Halted (rs.foldl (fun (acc : Nat × State) r => let y := acc.2.discardPosted r; (acc.1 + y.1, y.2)) (0, s)).2 q :=
  List.foldlRecOn rs _ (motive := fun acc : Nat × State => Halted acc.2 q) h (fun _ ha r _ => ha.discardPosted r)

theorem Halted.foldl_declareDead (h : Halted s q) (is : List Nat) : Halted (is.foldl (fun s i => s.declareDead i) s) q :=
  List.foldlRecOn is _ (motive := fun t => Halted t q) h (fun _ ht i _ => ht.declareDead i)

/-- No operation of a halted partition is there to be stopped. -/
theorem Halted.foldl_ops (h : Halted s q) (p : Nat) (c : Op → Bool) (f : State → Op → State) : Halted (((s.opsOf p).filter c).foldl f s) q := by
  simpa [h.opsOf] using h

theorem Halted.pumps (h : Halted s q) : s.pumpSnp.pumpReqs = s := by
  rw [pumpSnp_of_bi_nil h.bi, pumpReqs_of_hostIdle h.idle]

end

/-- Steps 1 to 3 of a partition reset, where nothing is under way, halt the partition; what is left to do then is the reset's record. -/
theorem startPartReset_of_nothingUnderWay {s : State} {q : Nat} (h : NothingUnderWay s q) (newKey sanitize mailbox : Bool) :
    ∃ t d n j, Halted t q ∧ j.newKey = newKey ∧ j.sanitize = sanitize ∧
      s.startPartReset q newKey sanitize mailbox = (t.modPart q (fun x => { x with aborts := x.aborts + d + n, reset := some j })).pumpSnp.pumpReqs := by
  have hhalt := halted_of_nothingUnderWay h
  obtain ⟨hst, hreset, -⟩ := h
  simp only [State.startPartReset, hreset, hst, OfNat.zero_ne_ofNat, if_false]
  refine ⟨_, _, _, _, ?_, rfl, rfl, rfl⟩
  refine Halted.releasePins (Halted.dropSheet (Halted.foldl_ops (Halted.endReqs ?_ q) ..))
  exact (hhalt.foldl_discardPosted _).foldl_declareDead _

end Sys2Proof.Machine

/-! SUPPORT. The end of a partition reset, the reset commands, and the settlement of O23. -/

namespace Sys2Proof.Machine

/-! ### The end of a partition reset (R78 steps 4 to 6) -/

/-- What applying default hints while the near tier is empty keeps of `s`. -/
structure HintsOnly (s t : State) : Prop where
  mem : t.mem = s.mem
  own : OwnSlots t
  resetCount : ∀ q, (t.part q).resetCount = (s.part q).resetCount

section
variable {s t : State}

theorem HintsOnly.modPart (h : HintsOnly s t) (p : Nat) {f : Part → Part} (hf : ∀ x, (f x).resetCount = x.resetCount) : HintsOnly s (t.modPart p f) := by
  refine ⟨h.mem, h.own, fun q => ?_⟩
  rw [State.part_modPart, ← h.resetCount q]
  split
  · subst q; exact hf _
  · rfl

theorem HintsOnly.settleTables (h : HintsOnly s t) : HintsOnly s t.settleTables := by
  rw [settleTables_of_ownSlots h.own]
  exact ⟨h.mem, ownSlots_settleSlots h.own, h.resetCount⟩

theorem HintsOnly.setHint (h : HintsOnly s t) (ht : s.mem.tags = []) (r : PbRange) (idx off n hint : Nat) : HintsOnly s (t.setHint r idx off n hint) := by
  simp only [State.setHint, State.residentIn, State.modPart_mem, h.mem, ht, List.filter_nil, List.map_nil, List.foldl_nil]
  refine HintsOnly.settleTables ?_
  exact h.modPart r.part (fun _ => rfl)

theorem hintsOnly_defaultHints (ht : s.mem.tags = []) (ho : OwnSlots s) (p : Nat) : HintsOnly s (s.defaultHints p) := by
  refine HintsOnly.modPart ?_ p (fun _ => rfl)
  exact List.foldlRecOn _ _ (motive := fun t => HintsOnly s t) ⟨rfl, ho, fun _ => rfl⟩ (fun t h x _ => h.setHint ht x.2 x.1 0 x.2.size x.2.hint)

end

theorem onlyChanges_foldl_modRing (rs : List Nat) (f : Ring → Ring) (s : State) : OnlyChanges [.disp] s (rs.foldl (fun s r => s.modRing r f) s) :=
  OnlyChanges.foldl (fun s r => onlyChanges_modRing s r f) rs s

@[simp] theorem foldl_modRing_mem (rs : List Nat) (f : Ring → Ring) (s : State) : (rs.foldl (fun s r => s.modRing r f) s).mem = s.mem :=
  onlyChanges_foldl_modRing rs f s .mem (by decide)

@[simp] theorem foldl_modRing_parts (rs : List Nat) (f : Ring → Ring) (s : State) : (rs.foldl (fun s r => s.modRing r f) s).parts = s.parts :=
  onlyChanges_foldl_modRing rs f s .parts (by decide)

@[simp] theorem foldl_modRing_part (rs : List Nat) (f : Ring → Ring) (s : State) (k : Nat) : (rs.foldl (fun s r => s.modRing r f) s).part k = s.part k := by
  simp [State.part]

/-- The end of a reset that keeps the key and that no mailbox command started: the partition runs, its resets are one more, and memory stands. -/
theorem endPartReset_of_keepsKey {s : State} {q : Nat} {j : ResetJob} (hkey : j.newKey = false) (hmail : j.mailbox = false) (ht : s.mem.tags = [])
    (ho : OwnSlots s) :
    ((s.endPartReset q j).part q).st = 0 ∧ ((s.endPartReset q j).part q).reset = none ∧
      ((s.endPartReset q j).part q).resetCount = satAdd 0xFFFF (s.part q).resetCount 1 ∧ (s.endPartReset q j).mem = s.mem := by
  have hhints : HintsOnly (s.clearBudget q) ((s.clearBudget q).defaultHints q) := hintsOnly_defaultHints (s := s.clearBudget q) ht ho q
  have hcount : (((s.clearBudget q).defaultHints q).part q).resetCount = (s.part q).resetCount := hhints.resetCount q
  have hmem : ((s.clearBudget q).defaultHints q).mem = s.mem := hhints.mem
  simp [State.endPartReset, hkey, hmail, hcount, hmem]

/-! ### RING_RESET, RING_RESET_END and PART_RESET -/

theorem exec_ringReset (p l n v : Nat) (s : State) : exec (.ringReset p l n v) s = execRingReset p l n v s := rfl
theorem exec_ringResetEnd (n : Nat) (s : State) : exec (.ringResetEnd n) s = execRingResetEnd n s := rfl
theorem exec_partReset (p l v : Nat) (s : State) : exec (.partReset p l v) s = execPartReset p l v s := rfl
theorem exec_partitionResetComplete (q : Nat) (s : State) : exec (.partitionResetComplete q) s = execPartitionResetComplete q s := rfl

/-- CONFIRM of a write of PART_RESET (Table 3-5). -/
theorem bits_31_16 {v : Nat} (h : v < 2 ^ 32) : bits v 31 16 = v / 65536 := by
  simp only [bits, Nat.shiftRight_eq_div_pow]
  omega

/-- PART_NUM of a write of PART_RESET (Table 3-5). -/
theorem bits_5_0 (v : Nat) : bits v 5 0 = v % 64 := by
  simp [bits]

/-- RING_RESET of a ring that holds no operation stops none: the ring is RESETTING, and the reset is recorded (R81). -/
theorem ringReset_of_no_ops {s : State} {p l q n v : Nat} {r : PbRing} (hq : s.ldPart p l = some q) (hr : s.pb.ringOf? q n = some r) (hv : v % 2 = 1)
    (hst : (s.part q).st = 0) (hring : (s.ring n).st ≠ 3) (hops : s.disp.ops = []) (hidle : HostIdle s) (hown : OwnSlots s) :
    Completes (.ringReset p l n v) s (fun t => (t.ring n).st = 3 ∧ (t.part q).aborts = (s.part q).aborts ∧ t.mgmt.logNext = (s.mgmt.logNext + 1) % 2 ^ 32) := by
  have hbit : bit v 0 = true := by simp [bit, Nat.testBit_zero, hv]
  refine ⟨_, by rw [exec_ringReset, execRingReset, doorbell_of_own hq hr], ?_⟩
  simp only [hbit, hst, hring, hops, Bool.not_true, Bool.false_eq_true, ne_eq, not_true_eq_false, if_false, List.filter_nil, List.foldl_nil,
    List.length_nil, Nat.add_zero]
  rw [settleTables_of_ownSlots (by simpa [OwnSlots] using hown), pumpReqs_of_hostIdle (by simpa [HostIdle] using hidle)]
  simp

/-- A write of PART_RESET that names another partition, or lacks its confirmation, is counted and recorded (R64). -/
theorem partReset_refused {s : State} {p l q v : Nat} (hq : s.ldPart p l = some q) (hv : v < 2 ^ 32) (hbad : v / 65536 ≠ 0xC0DE ∨ v % 64 ≠ q) :
    exec (.partReset p l v) s = .next ((s.noPerm q).logEv .partRefused q (ldIdx p l) 0 0) := by
  simp only [exec_partReset, execPartReset, hq, bits_31_16 hv, bits_5_0, if_pos hbad]

/-- A write of PART_RESET that is confirmed and names its own partition begins a reset, or joins the one that runs (R64). -/
theorem partReset_confirmed {s : State} {p l q v : Nat} (hq : s.ldPart p l = some q) (hup : s.dataUp = true) (hv : v < 2 ^ 32)
    (hconf : v / 65536 = 0xC0DE) (hnum : v % 64 = q) :
    exec (.partReset p l v) s = .next (s.startPartReset q (((s.pb.part? q).map (·.keyOnReset)).getD false) false false) := by
  simp [exec_partReset, execPartReset, hq, bits_31_16 hv, bits_5_0, hconf, hnum, hup]

/-- Settles O23: a partition reset of a partition with nothing under way keeps it `Halted` up to its record, and its end, over an empty near tier, applies hints to no block. -/
theorem ringAndPartitionResets : Obligations.RingAndPartitionResets := by
  refine ⟨fun s p l q n v r hq hr hv hst hring hops hidle hown => ringReset_of_no_ops hq hr hv hst hring hops hidle hown,
    fun s p l q n v r hq hr hn hst => ⟨?_, ?_, ?_⟩, fun s n hst => ⟨fun hnone => ?_, fun hsome => ?_⟩,
    fun s p l q v hq hup hv hconf hnum => ⟨fun hnone => ?_, fun j hj => ?_⟩, fun s p l q v hq hv hbad => ?_,
    fun s q j hup hops hj hkey hmail ht ho => ?_⟩
  · exact congrArg _ (pointerWrite_of_resetting hq hr hst _)
  · exact congrArg _ (pointerWrite_of_resetting hq hr hst _)
  · refine ⟨_, rcRead_ringStatus hq hn hr, _, ?_, rfl⟩
    rw [ringStatus_mod_eight]
    simp [State.ringState, hst]
  · simp [exec_ringResetEnd, execRingResetEnd, hst, hnone]
  · simp [exec_ringResetEnd, execRingResetEnd, hst, hsome]
  · obtain ⟨t, d, n, j, hhalt, hkey, hsan, heq⟩ := startPartReset_of_nothingUnderWay hnone (((s.pb.part? q).map (·.keyOnReset)).getD false) false false
    refine ⟨_, partReset_confirmed hq hup hv hconf hnum, ?_⟩
    have hrec := hhalt.modPart q (f := fun x => { x with aborts := x.aborts + d + n, reset := some j }) (fun _ => rfl) (fun _ hx => hx) (fun _ hx => hx)
    rw [heq, hrec.pumps]
    exact ⟨hrec.st, j, by simp, hkey, hsan⟩
  · rw [partReset_confirmed hq hup hv hconf hnum]
    simp [State.startPartReset, hj]
  · refine ⟨_, partReset_refused hq hv hbad, by simp [State.noPerm], by simp, ?_⟩
    exact OnlyChanges.trans ((onlyChanges_modPart s q _).mono (by simp)) ((onlyChanges_logEv _ _ _ _ _ _).mono (by simp))
  · refine ⟨(s.endPartReset q j).noteEligible, ?_, ?_⟩
    · simp [exec_partitionResetComplete, execPartitionResetComplete, hj, hup, hops]
    · simpa using endPartReset_of_keepsKey hkey hmail ht ho

end Sys2Proof.Machine

/-! SUPPORT. The frame of what a hint or an eviction does to resident blocks, what it keeps of the TIER_HINT registers, and the settlement of O30. -/

namespace Sys2Proof.Machine

/-! ### Updates of one piece -/

theorem onlyChanges_setMem (s : State) (m) : OnlyChanges [.mem] s { s with mem := m } := by
  intro x hx
  cases x with
  | mem => simp at hx
  | _ => rfl

theorem onlyChanges_setGol (s : State) (g) : OnlyChanges [.gol] s { s with gol := g } := by
  intro x hx
  cases x with
  | gol => simp at hx
  | _ => rfl

theorem onlyChanges_setCld (s : State) (c) : OnlyChanges [.cld] s { s with cld := c } := by
  intro x hx
  cases x with
  | cld => simp at hx
  | _ => rfl

theorem onlyChanges_modSess (s : State) (peer : Nat) (f : Sess → Sess) : OnlyChanges [.cld] s (s.modSess peer f) := onlyChanges_setCld s _

theorem onlyChanges_modCport (s : State) (p : Nat) (f : CPort → CPort) : OnlyChanges [.cld] s (s.modCport p f) := onlyChanges_setCld s _

theorem onlyChanges_emit (s : State) (o : Output) : OnlyChanges [.outs] s (s.emit o) := by
  intro x hx
  cases x with
  | outs => simp at hx
  | _ => rfl

theorem onlyChanges_charge (s : State) (cls point act n : Nat) : OnlyChanges [.bud] s (s.charge cls point act n) := by
  intro x hx
  cases x with
  | bud => simp at hx
  | _ => simp [Piece.Same]

theorem onlyChanges_modCtl (s : State) (c : Ctl) (f : DCtl → DCtl) : OnlyChanges [.dram] s (s.modCtl c f) := by
  intro x hx
  cases x with
  | dram => simp at hx
  | _ => simp [Piece.Same]

/-! ### Write-back and eviction of a resident block (R85, R242, R281) -/

theorem onlyChanges_useNear (s : State) (blk i n act : Nat) : OnlyChanges [.bud, .dram] s (s.useNear blk i n act) := by
  unfold State.useNear
  split
  · split
    · exact OnlyChanges.refl _ s
    · exact OnlyChanges.trans ((onlyChanges_charge s _ _ _ _).mono (by simp)) (OnlyChanges.foldl (fun t _ => (onlyChanges_modCtl t _ _).mono (by simp)) _ _)
  · exact OnlyChanges.refl _ s

theorem onlyChanges_mergePush (s : State) (line : Nat) (op : MergeOp) (act : Nat) : OnlyChanges [.mem] s (s.mergePush line op act) := by
  dsimp only [State.mergePush]
  split <;> exact onlyChanges_setMem s _

theorem onlyChanges_writeBack (s : State) (blk : Nat) : OnlyChanges [.mem, .bud, .dram] s (s.writeBack blk) :=
  OnlyChanges.trans ((onlyChanges_useNear s blk 0 64 (s.ownerAct blk)).mono (by simp))
    (OnlyChanges.foldl (fun t _ => (onlyChanges_mergePush t _ _ _).mono (by simp)) _ _)

theorem onlyChanges_evictBlk (s : State) (blk : Nat) : OnlyChanges [.mem, .bud, .dram] s (s.evictBlk blk) := by
  have hdel : ∀ t : State, OnlyChanges [.mem, .bud, .dram] t (t.nearDel blk) := fun t => (onlyChanges_setMem t _).mono (by simp)
  unfold State.evictBlk
  split
  · exact OnlyChanges.refl _ s
  · split
    · exact OnlyChanges.trans (onlyChanges_writeBack s blk) (hdel _)
    · exact hdel s

/-! ### Messages of the slots that are settled (R216, R234) -/

theorem onlyChanges_sendOut (s : State) (p : Nat) (o : Output) : OnlyChanges [.cld, .outs] s (s.sendOut p o) := by
  unfold State.sendOut
  split
  · exact (onlyChanges_modCport s p _).mono (by simp)
  · exact OnlyChanges.trans ((onlyChanges_modCport s p _).mono (by simp)) ((onlyChanges_emit _ o).mono (by simp))

theorem onlyChanges_sendFrame (s : State) (peer : Nat) (seq : Option Nat) (retx : Bool) (m : ColdonMsg) :
    OnlyChanges [.cld, .outs] s (s.sendFrame peer seq retx m) := by
  unfold State.sendFrame
  split
  · exact OnlyChanges.refl _ s
  · refine OnlyChanges.trans (OnlyChanges.trans ?_ ((onlyChanges_modCport _ _ _).mono (by simp))) (onlyChanges_sendOut _ _ _)
    exact (onlyChanges_modSess s peer _).mono (by simp)

theorem onlyChanges_txSeq (s : State) (peer act : Nat) (m : ColdonMsg) : OnlyChanges [.cld, .outs, .bud] s (s.txSeq peer act m) := by
  unfold State.txSeq
  split
  · exact OnlyChanges.refl _ s
  · refine OnlyChanges.trans (OnlyChanges.trans ?_ ((onlyChanges_charge _ _ _ _ _).mono (by simp))) ((onlyChanges_sendFrame _ _ _ _ _).mono (by simp))
    exact (onlyChanges_modSess s peer _).mono (by simp)

theorem onlyChanges_sendSeq (s : State) (peer act : Nat) (m : ColdonMsg) : OnlyChanges [.cld, .outs, .bud] s (s.sendSeq peer act m) := by
  unfold State.sendSeq
  split
  · exact OnlyChanges.refl _ s
  · split
    · exact onlyChanges_txSeq s peer act m
    · exact (onlyChanges_modSess s peer _).mono (by simp)

theorem onlyChanges_settleTables (s : State) : OnlyChanges [.gol, .cld, .outs, .bud] s s.settleTables := by
  have hsend : ∀ (t : State) (peer : Nat) (m : ColdonMsg), OnlyChanges [.gol, .cld, .outs, .bud] t (t.sendSeq peer actColdon m) :=
    fun t peer m => (onlyChanges_sendSeq t peer actColdon m).mono (by simp)
  refine OnlyChanges.trans ((onlyChanges_setGol s _).mono (by simp)) (OnlyChanges.foldl (fun t x => ?_) _ s.settleSlots)
  dsimp only
  split_ifs
  · exact OnlyChanges.foldl (fun t m => hsend t m _) _ t
  · exact hsend t _ _
  · exact OnlyChanges.refl _ t

/-! ### What hints and evictions keep of the TIER_HINT registers (R87, R88) -/

/-- The prompt book, and of every partition the hints that its TIER_HINT registers read and the evictions in progress, are the same in both states. -/
structure KeepsTierRegs (s t : State) : Prop where
  mgmt : t.mgmt = s.mgmt
  hintReg : ∀ k, (t.part k).hintReg = (s.part k).hintReg
  evicting : ∀ k, (t.part k).evicting = (s.part k).evicting

/-- `t` differs from `s` in no eviction in progress, and its TIER_HINT[n] of partition `p` reads `hint`. -/
structure HintSet (s t : State) (p n hint : Nat) : Prop where
  hintReg : tabFind (t.part p).hintReg n = some hint
  evicting : ∀ k, (t.part k).evicting = (s.part k).evicting

section
variable {s t u : State} {p n : Nat} {r : PbRange}

theorem KeepsTierRegs.refl (s : State) : KeepsTierRegs s s := ⟨rfl, fun _ => rfl, fun _ => rfl⟩

theorem KeepsTierRegs.trans (h : KeepsTierRegs s t) (k : KeepsTierRegs t u) : KeepsTierRegs s u :=
  ⟨k.mgmt.trans h.mgmt, fun q => (k.hintReg q).trans (h.hintReg q), fun q => (k.evicting q).trans (h.evicting q)⟩

theorem KeepsTierRegs.foldl {α : Type} {f : State → α → State} (h : ∀ s x, KeepsTierRegs s (f s x)) (xs : List α) (s : State) :
    KeepsTierRegs s (xs.foldl f s) :=
  List.foldlRecOn xs f (KeepsTierRegs.refl s) (fun t ht x _ => ht.trans (h t x))

theorem keepsTierRegs_of_onlyChanges {l : List Piece} (h : OnlyChanges l s t) (hmgmt : Piece.mgmt ∉ l) (hparts : Piece.parts ∉ l) : KeepsTierRegs s t := by
  have hsame : t.parts = s.parts := h .parts hparts
  exact ⟨h .mgmt hmgmt, fun k => by simp [State.part, hsame], fun k => by simp [State.part, hsame]⟩

theorem keepsTierRegs_modPart (s : State) (p : Nat) {f : Part → Part} (hhint : ∀ x, (f x).hintReg = x.hintReg) (hev : ∀ x, (f x).evicting = x.evicting) :
    KeepsTierRegs s (s.modPart p f) := by
  refine ⟨rfl, fun k => ?_, fun k => ?_⟩ <;> rw [State.part_modPart] <;> split
  · subst k; exact hhint _
  · rfl
  · subst k; exact hev _
  · rfl

theorem keepsTierRegs_evictBlk (s : State) (blk : Nat) : KeepsTierRegs s (s.evictBlk blk) :=
  keepsTierRegs_of_onlyChanges (onlyChanges_evictBlk s blk) (by decide) (by decide)

theorem keepsTierRegs_nearMod (s : State) (blk : Nat) (f : NearBlk → NearBlk) : KeepsTierRegs s (s.nearMod blk f) :=
  keepsTierRegs_of_onlyChanges (onlyChanges_setMem s _) (by decide) (by decide)

theorem keepsTierRegs_settleTables (s : State) : KeepsTierRegs s s.settleTables :=
  keepsTierRegs_of_onlyChanges (onlyChanges_settleTables s) (by decide) (by decide)

theorem keepsTierRegs_pinBlk (s : State) (blk : Nat) : KeepsTierRegs s (s.pinBlk blk) := by
  unfold State.pinBlk
  split
  · exact KeepsTierRegs.refl s
  · split_ifs
    · exact KeepsTierRegs.refl s
    · exact keepsTierRegs_nearMod s blk _
    · exact keepsTierRegs_modPart s _ (fun _ => rfl) (fun _ => rfl)

theorem keepsTierRegs_hintBlk (s : State) (blk hint : Nat) : KeepsTierRegs s (s.hintBlk blk hint) := by
  unfold State.hintBlk
  split_ifs
  · exact keepsTierRegs_pinBlk s blk
  · exact keepsTierRegs_evictBlk s blk
  · exact keepsTierRegs_nearMod s blk _

theorem keepsTierRegs_setHint (s : State) (r : PbRange) (idx off n hint : Nat) : KeepsTierRegs s (s.setHint r idx off n hint) := by
  refine KeepsTierRegs.trans (KeepsTierRegs.trans ?_ (KeepsTierRegs.foldl (fun t b => keepsTierRegs_hintBlk t b hint) _ _)) (keepsTierRegs_settleTables _)
  exact keepsTierRegs_modPart s r.part (fun _ => rfl) (fun _ => rfl)

/-- Evicting blocks and then settling the tables, as every eviction does. -/
theorem keepsTierRegs_evictBlks (s : State) (bs : List Nat) : KeepsTierRegs s (bs.foldl (fun s b => s.evictBlk b) s).settleTables :=
  (KeepsTierRegs.foldl keepsTierRegs_evictBlk bs s).trans (keepsTierRegs_settleTables _)

theorem keepsTierRegs_evictRange (s : State) (p n : Nat) : KeepsTierRegs s (s.evictRange p n) := by
  unfold State.evictRange
  split
  · exact KeepsTierRegs.refl s
  · exact keepsTierRegs_evictBlks s _

theorem KeepsTierRegs.hintSet (h : KeepsTierRegs s t) (p n hint : Nat) :
    HintSet s (t.modPart p (fun x => { x with hintReg := tabSet x.hintReg n hint })) p n hint := by
  refine ⟨by simp [tabFind_tabSet], fun k => ?_⟩
  rw [State.part_modPart, ← h.evicting k]
  split
  · subst k; rfl
  · rfl

theorem KeepsTierRegs.range? (h : KeepsTierRegs s t) (hr : s.pb.range? p n = some r) : t.pb.range? p n = some r := by
  rwa [State.pb, h.mgmt]

/-- A hint that is set for a range is the one that its TIER_HINT reads, whatever was done to the blocks before. -/
theorem KeepsTierRegs.hintSet_setRangeHint (h : KeepsTierRegs s t) (hr : s.pb.range? p n = some r) (hint : Nat) :
    HintSet s (t.setRangeHint p n hint) p n hint := by
  simp only [State.setRangeHint, h.range? hr]
  exact (h.trans (keepsTierRegs_setHint t r n 0 r.size hint)).hintSet p n hint

/-- The end of an eviction sets the hint of its entry, whether or not PLACE has set pages of it since (R87, R90). -/
theorem hintSet_endEvict (hr : s.pb.range? p n = some r) (hint : Nat) (placed : List (Nat × Nat)) :
    HintSet s (s.endEvict p n (some hint) placed) p n hint := by
  simp only [State.endEvict, hr]
  split
  · exact (keepsTierRegs_evictRange s p n).hintSet_setRangeHint hr hint
  · have hpages := KeepsTierRegs.foldl (fun t i => keepsTierRegs_setHint t r n (pageBytes * i) pageBytes hint)
    exact KeepsTierRegs.hintSet (KeepsTierRegs.trans (keepsTierRegs_evictBlks s _) (hpages _ _)) p n hint

/-! ### A write of TIER_HINT, case by case (Table 4-2, R90) -/

theorem lt_length_of_range? {b : PromptBook} (hr : b.range? p n = some r) : n < (b.rangesOf p).length :=
  (List.getElem?_eq_some_iff.1 hr).1

theorem tierWrite_bad {v : Nat} (h : (s.pb.rangesOf p).length ≤ n ∨ 4 ≤ v % 8) :
    s.tierWrite p n v = s.modPart p (fun x => { x with badWrites := x.badWrites + 1 }) := by
  simp only [State.tierWrite, if_pos h]

section
variable {v : Nat} (hr : s.pb.range? p n = some r) (hv : v % 8 < 4)
include hr hv

theorem not_badTierWrite : ¬ ((s.pb.rangesOf p).length ≤ n ∨ 4 ≤ v % 8) := by
  have := lt_length_of_range? hr
  omega

theorem tierWrite_hint (hbit : bit v 8 = false) (hnone : tabFind (s.part p).evicting n = none) : s.tierWrite p n v = s.setRangeHint p n (v % 8) := by
  simp [State.tierWrite, not_badTierWrite hr hv, hnone, hbit]

theorem tierWrite_evict (hbit : bit v 8 = true) (hnone : tabFind (s.part p).evicting n = none) :
    s.tierWrite p n v = (s.evictRange p n).modPart p (fun x => { x with evicting := tabSet x.evicting n (some (v % 8)) }) := by
  simp [State.tierWrite, not_badTierWrite hr hv, hnone, hbit]

theorem tierWrite_evict_joins (hbit : bit v 8 = true) {h : Option Nat} (hsome : tabFind (s.part p).evicting n = some h) :
    s.tierWrite p n v = s.modPart p (fun x => { x with evicting := tabSet x.evicting n (some (v % 8)), evictPlaced := tabDel x.evictPlaced n }) := by
  simp [State.tierWrite, not_badTierWrite hr hv, hsome, hbit]

end

end

/-! ### TIER_HINT_WRITE, EVICT and EVICT_DONE -/

/-- What EVICT writes: the value with bit 8, EVICT, set. -/
def evictWord (v : Nat) : Nat := if bit v 8 then v else v + 256

@[simp] theorem evictWord_mod_eight (v : Nat) : evictWord v % 8 = v % 8 := by
  unfold evictWord
  split <;> omega

@[simp] theorem bit_evictWord (v : Nat) : bit (evictWord v) 8 = true := by
  unfold evictWord
  split
  · assumption
  next h => simpa [bit, Nat.add_comm v] using (Nat.testBit_two_pow_add_eq v 8).trans (by simpa [bit] using h)

theorem exec_tierHintWrite_of_ldPart {s : State} {p l q : Nat} (hq : s.ldPart p l = some q) (n v : Nat) :
    exec (.tierHintWrite p l n v) s = .next (s.tierWrite q n v) := by
  have harm : exec (.tierHintWrite p l n v) s = execTierHintWrite p l n v s := rfl
  simp [harm, execTierHintWrite, hq]

theorem exec_evict_of_ldPart {s : State} {p l q : Nat} (hq : s.ldPart p l = some q) (n v : Nat) :
    exec (.evict p l n v) s = .next (s.tierWrite q n (evictWord v)) := by
  have harm : exec (.evict p l n v) s = execEvict p l n v s := rfl
  simp [harm, execEvict, hq, evictWord]

theorem exec_evictDone_of_evicting {s : State} {q n : Nat} {h : Option Nat} (hev : tabFind (s.part q).evicting n = some h) :
    exec (.evictDone q n) s = .next ((s.modPart q (fun x => { x with evicting := tabDel x.evicting n, evictPlaced := tabDel x.evictPlaced n })).endEvict q n h
      (tabGet [] (s.part q).evictPlaced n)) := by
  have harm : exec (.evictDone q n) s = execEvictDone q n s := rfl
  simp [harm, execEvictDone, hev]

/-! ### A read of TIER_HINT[n] beyond the range list (R90) -/

theorem barBlock_tierHint (q : Nat) {n : Nat} (hn : n < 256) : barBlock q (0x03001000 + 4 * n) = some (.tier q, 4 * n) := by
  simp only [barBlock]
  rw [if_neg (by omega), if_neg (by omega), if_neg (by omega), if_neg (by omega), if_pos (by omega), Nat.add_sub_cancel_left]

theorem tierReg_hint_of_no_range {s : State} {q n : Nat} (hn : n < 256) (hr : s.pb.range? q n = none) : s.tierReg q (4 * n) = r32 0 := by
  simp [State.tierReg, hr, show 4 * n < 0x400 by omega]

theorem rcRead_tierHint_of_no_range {s : State} {p l q n : Nat} (hq : s.ldPart p l = some q) (hn : n < 256) (hr : s.pb.range? q n = none) :
    exec (.rcRead ⟨.ld p l, none⟩ (0x03001000 + 4 * n) 4 0) s = .next (s.emit (.regValue (.ld p l) (0x03001000 + 4 * n) 4 0)) := by
  obtain ⟨hreach, hpart⟩ := ldPart_eq_some hq
  have hhit : hit (s.regAt (.host p l) (.tier q)) (4 * n) 4 = .whole { width := 4, value := 0 } (4 * n) := by
    simp [hit, State.regAt, tierReg_hint_of_no_range hn hr, r32]
  have hread : s.barRead p l (0x03001000 + 4 * n) 4 0 = (0, s) := by
    simp [State.barRead, hpart, barBlock_tierHint q hn, State.readBlk, hhit]
  rw [exec_rcRead_of_ldReach hreach, hread]

/-- Settles O30: a write takes the branch of `tierWrite` that the range and the eviction in progress name, and nothing that a hint or an eviction does to blocks or tables touches a TIER_HINT register. -/
theorem tierRegisters : Obligations.TierRegisters := by
  refine ⟨fun s p l q n v r hq hr hv hnone => ?_, fun s p l q n v hq hbad => ⟨?_, ?_⟩, fun s p l q n hq hn hr => rcRead_tierHint_of_no_range hq hn hr,
    fun s p l q n v r hq hr hv hnone => ?_, fun s p l q n v r h hq hr hv hsome => ?_, fun s q n h r hr hev => ?_⟩
  · have hmod : v % 8 = v := by omega
    have hbit : bit v 8 = false := Nat.testBit_lt_two_pow (by omega)
    have hset := (KeepsTierRegs.refl s).hintSet_setRangeHint hr v
    refine ⟨_, exec_tierHintWrite_of_ldPart hq n v, ?_⟩
    rw [tierWrite_hint hr (by omega) hbit hnone, hmod]
    exact hset.hintReg
  · rw [exec_tierHintWrite_of_ldPart hq, tierWrite_bad hbad]
  · rw [exec_evict_of_ldPart hq, tierWrite_bad (by rwa [evictWord_mod_eight])]
  · have hmod : v % 8 = v := by omega
    refine ⟨_, exec_evict_of_ldPart hq n v, ?_⟩
    rw [tierWrite_evict hr (by simp; omega) (bit_evictWord v) hnone]
    simp [tabFind_tabSet, hmod]
  · have hmod : v % 8 = v := by omega
    rw [exec_evict_of_ldPart hq, tierWrite_evict_joins hr (by simp; omega) (bit_evictWord v) hsome, evictWord_mod_eight, hmod]
  · refine ⟨_, exec_evictDone_of_evicting hev, ?_⟩
    obtain ⟨hhint, hevicting⟩ := hintSet_endEvict
      (s := s.modPart q (fun x => { x with evicting := tabDel x.evicting n, evictPlaced := tabDel x.evictPlaced n })) hr h (tabGet [] (s.part q).evictPlaced n)
    refine ⟨?_, hhint⟩
    rw [hevicting q]
    simp [tabFind_tabDel]

end Sys2Proof.Machine
